-- ==== Sys2Proof/Word.lean ====
section
/-! DEFINITION. Words, bytes and the tuple of a host transaction with its response
(00_scope.md R10; 20_memory.md R51). -/

namespace Sys2Proof

/-- A 32-bit word (00_scope.md R10). -/
abbrev Word := BitVec 32

/-- A byte is 8 bits (00_scope.md R10). -/
abbrev Byte := BitVec 8

/-- A SHA-256 chaining value: eight words (10_state.md R24). -/
abbrev Chain := Vector Word 8

/-- The kind of a transaction (20_memory.md R51). -/
inductive Kind where
  | rd
  | wr
deriving DecidableEq, Repr

/-- The access width of a transaction: 1, 2 or 4 bytes (20_memory.md R51). -/
inductive Size where
  | byte
  | half
  | word
deriving DecidableEq, Repr

/-- A transaction (kind, off, size, wdata): `off` is the 12-bit offset from BASE, and `wdata` is used
only by WR (20_memory.md R51). -/
structure Txn where
  kind  : Kind
  off   : BitVec 12
  size  : Size
  wdata : Word
deriving DecidableEq, Repr

/-- A host access before the platform has turned its address into an offset (00_scope.md R12). -/
structure HostAccess where
  kind  : Kind
  addr  : Nat
  size  : Size
  wdata : Word
deriving DecidableEq, Repr

/-- The `resp` part of a response (20_memory.md R51). -/
inductive Resp where
  | okay
  | error
deriving DecidableEq, Repr

/-- The response (resp, rdata) of a transaction (20_memory.md R51). -/
structure Response where
  resp  : Resp
  rdata : Word
deriving DecidableEq, Repr

end Sys2Proof
end

