-- ==== Sys2Proof/Config.lean ====
section
/-! DEFINITION. The fixed parameters of the engine (00_scope.md R6, R7, R8), the parameters it leaves open
(00_scope.md R9) and the free values. -/

namespace Sys2Proof

/-- B, the hash block size in bytes (00_scope.md R6). -/
def Config.blockSize : Nat := 64

/-- L, the hash output size in bytes (00_scope.md R6). -/
def Config.digestSize : Nat := 32

/-- The byte of ipad (00_scope.md R6). -/
def Config.ipad : Byte := 0x36#8

/-- The byte of opad (00_scope.md R6). -/
def Config.opad : Byte := 0x5c#8

/-- LMAX_KEY, the most key bytes the engine accepts (00_scope.md R8). -/
def Config.lmaxKey : Nat := 2 ^ 61 - 1

/-- LMAX_MSG, the most message bytes the engine accepts (00_scope.md R8). -/
def Config.lmaxMsg : Nat := 2 ^ 61 - 65

/-- The size of the register window in bytes (00_scope.md R7; 20_memory.md R50). -/
def Config.windowSize : Nat := 4096

/-- The number of the 4 KiB page that holds the window. The platform defines it (00_scope.md R9). -/
opaque Config.basePage : Nat

/-- BASE, the host address of window offset 0x000: a multiple of 4096, otherwise open (00_scope.md R9). -/
def Config.base : Nat := Config.windowSize * Config.basePage

/-- FREE VALUE: what the host gets for the n-th transaction that reset cuts short, no response or any
response (70_reset_and_hazards.md R251; 93_implementation_defined.md U8; log entry 4). -/
opaque Config.cutResponse : Nat → Option Response

end Sys2Proof
end

