-- ==== Sys2Proof/Syntax.lean ====
section
/-! DEFINITION. The instructions of the engine, one constructor per row of the opcode table: six command
words and six transaction forms (30_encoding.md R70). -/

namespace Sys2Proof

/-- The engine's "instruction set": command words written to CMD and host transactions (10_state.md R21).
The operands are those of 30_encoding.md R73; a WR carries its data word (20_memory.md R51). -/
inductive Instr where
  /-- BEGIN: open a new computation (41_session.md R140). -/
  | begin_
  /-- KEYB b: append one key byte (42_key.md R162). -/
  | keyb (b : Byte)
  /-- KEYEND: close the key (42_key.md R163). -/
  | keyend
  /-- MSGB b: append one message byte (43_message.md R183). -/
  | msgb (b : Byte)
  /-- FINISH: close the message and publish the result (43_message.md R184). -/
  | finish
  /-- CLEAR: discard everything (41_session.md R141). -/
  | clear
  /-- RD CMD (44_output.md R204). -/
  | rdCmd
  /-- RD STATUS (44_output.md R203). -/
  | rdStatus
  /-- RD HEX[c] (44_output.md R202). -/
  | rdHex (c : Nat)
  /-- WR CMD, w: issue a command (44_output.md R205). -/
  | wrCmd (w : Word)
  /-- WR STATUS, w (44_output.md R206). -/
  | wrStatus (w : Word)
  /-- WR HEX[c], w (44_output.md R206). -/
  | wrHex (c : Nat) (w : Word)
deriving DecidableEq, Repr

end Sys2Proof
end

