-- ==== Sys2Proof/WellFormed.lean ====
section
/-! DEFINITION. When an instruction is one the engine has: a HEX index is 0 to 63 (30_encoding.md R73).
Every other operand has exactly the width of its type. -/

namespace Sys2Proof

/-- The HEX registers are HEX[0..63] (10_state.md R33). -/
def hexIndexOk (c : Nat) : Bool := c < 64

/-- The instruction's operands are within the ranges of 30_encoding.md R73. -/
def Instr.wellFormed : Instr → Bool
  | .rdHex c => hexIndexOk c
  | .wrHex c _ => hexIndexOk c
  | .begin_ | .keyb _ | .keyend | .msgb _ | .finish | .clear => true
  | .rdCmd | .rdStatus | .wrCmd _ | .wrStatus _ => true

end Sys2Proof
end

