-- ==== Sys2Proof/Decode.lean ====
section
/-! DEFINITION. What the engine decodes (30_encoding.md R70): a host transaction by its selector (format BUS)
and the 32-bit word written to CMD (format CMD); then the encoder, and the opcode table as data. -/

namespace Sys2Proof

/-- The two things the engine decodes (30_encoding.md R70): a command word (R72), or a transaction's
13-bit selector SEL = WE ++ OFF with the data of a WR (R71; 20_memory.md R51). -/
inductive Encoding where
  | cmd (w : Word)
  | bus (sel : BitVec 13) (wdata : Word)
deriving DecidableEq, Repr

/-- A decoded command (30_encoding.md R75). -/
inductive Command where
  | begin_
  | keyb (b : Byte)
  | keyend
  | msgb (b : Byte)
  | finish
  | clear
deriving DecidableEq, Repr

/-- The two ways a command word is no command (30_encoding.md R75). -/
inductive CmdError where
  | illegal
  | reservedOperand
deriving DecidableEq, Repr

/-- Why something decodes to no instruction: a command word (30_encoding.md R75), a transaction of the
wrong width or alignment (20_memory.md R52), or an unmapped offset (20_memory.md R53). -/
inductive DecodeError where
  | command (e : CmdError)
  | size
  | misaligned
  | unmapped
deriving DecidableEq, Repr

/-- The opcode field OP = w[31:24] (30_encoding.md R72). -/
def opField (w : Word) : BitVec 8 := w.extractLsb' 24 8

/-- The operand BYTE = w[7:0] (30_encoding.md R73). -/
def byteField (w : Word) : Byte := w.extractLsb' 0 8

/-- Sub-format C0: bits 23:0 must be 0 (30_encoding.md R72). -/
def decodeC0 (c : Command) (w : Word) : Except CmdError Command :=
  if w.extractLsb' 0 24 = 0#24 then .ok c else .error .reservedOperand

/-- Sub-format C8: bits 23:8 must be 0, and bits 7:0 are the byte (30_encoding.md R72). -/
def decodeC8 (c : Byte → Command) (w : Word) : Except CmdError Command :=
  if w.extractLsb' 8 16 = 0#16 then .ok (c (byteField w)) else .error .reservedOperand

/-- DecodeCmd(w) (30_encoding.md R75), with the opcodes of R74. It reads no state. -/
def decodeCmd (w : Word) : Except CmdError Command :=
  if opField w = 0x01#8 then decodeC0 .begin_ w
  else if opField w = 0x02#8 then decodeC8 .keyb w
  else if opField w = 0x03#8 then decodeC0 .keyend w
  else if opField w = 0x04#8 then decodeC8 .msgb w
  else if opField w = 0x05#8 then decodeC0 .finish w
  else if opField w = 0x06#8 then decodeC0 .clear w
  else .error .illegal

/-- The opcode-table row of a decoded command. -/
def Command.toInstr : Command → Instr
  | .begin_ => .begin_
  | .keyb b => .keyb b
  | .keyend => .keyend
  | .msgb b => .msgb b
  | .finish => .finish
  | .clear => .clear

/-- Address decoding of an aligned 32-bit access (20_memory.md R53), by the fields of SEL
(30_encoding.md R71): bit 12 WE, bits 11:8 the register group, bits 7:2 the word index. -/
def decodeBus (sel : BitVec 13) (wdata : Word) : Except DecodeError Instr :=
  let write := sel.getLsbD 12
  let off := sel.extractLsb' 0 12
  let c := (sel.extractLsb' 2 6).toNat
  if sel.extractLsb' 0 2 ≠ 0#2 then .error .misaligned
  else if sel.extractLsb' 8 4 = 0x1#4 then .ok (if write then .wrHex c wdata else .rdHex c)
  else if off = 0x000#12 then .ok (if write then .wrCmd wdata else .rdCmd)
  else if off = 0x004#12 then .ok (if write then .wrStatus wdata else .rdStatus)
  else .error .unmapped

/-- SEL = WE ++ OFF (30_encoding.md R71). -/
def Txn.sel (t : Txn) : BitVec 13 :=
  (match t.kind with | .rd => 0#1 | .wr => 1#1) ++ t.off

/-- Decoding of a transaction. The width and alignment check comes before address decoding
(20_memory.md R52, R53). -/
def decodeTxn (t : Txn) : Except DecodeError Instr :=
  if t.size ≠ .word then .error .size else decodeBus t.sel t.wdata

/-- The decoder, total on every encoding, rejecting by name (30_encoding.md R70). -/
def decode : Encoding → Except DecodeError Instr
  | .cmd w =>
    match decodeCmd w with
    | .ok c => .ok c.toInstr
    | .error e => .error (.command e)
  | .bus sel wdata => decodeBus sel wdata

/-- enc(OP, b) = (OP << 24) or b (30_encoding.md R74). -/
def enc (op : BitVec 8) (b : Byte) : Word :=
  (op.setWidth 32 <<< 24) ||| b.setWidth 32

/-- The word of a command (30_encoding.md R74). -/
def Command.encode : Command → Word
  | .begin_ => enc 0x01#8 0x00#8
  | .keyb b => enc 0x02#8 b
  | .keyend => enc 0x03#8 0x00#8
  | .msgb b => enc 0x04#8 b
  | .finish => enc 0x05#8 0x00#8
  | .clear => enc 0x06#8 0x00#8

/-- The selector of HEX[c]: offset 0x100 + 4·c (10_state.md R33). -/
def hexSel (write : BitVec 1) (c : Nat) : BitVec 13 :=
  write ++ (0x100#12 + BitVec.ofNat 12 (4 * c))

/-- The encoder: the word of a command (30_encoding.md R74), the selector and data of a transaction
(20_memory.md R53). A read has no data; its data word is 0 here. -/
def encode : Instr → Encoding
  | .begin_ => .cmd Command.begin_.encode
  | .keyb b => .cmd (Command.keyb b).encode
  | .keyend => .cmd Command.keyend.encode
  | .msgb b => .cmd (Command.msgb b).encode
  | .finish => .cmd Command.finish.encode
  | .clear => .cmd Command.clear.encode
  | .rdCmd => .bus 0x0000#13 0#32
  | .rdStatus => .bus 0x0004#13 0#32
  | .rdHex c => .bus (hexSel 0#1 c) 0#32
  | .wrCmd w => .bus 0x1000#13 w
  | .wrStatus w => .bus 0x1004#13 w
  | .wrHex c w => .bus (hexSel 1#1 c) w

/-- The transaction that carries an encoding: a command word is written to CMD (10_state.md R34;
30_encoding.md R77), a selector is the transaction itself, of size 4 (30_encoding.md R71). -/
def Encoding.txn : Encoding → Txn
  | .cmd w => ⟨.wr, 0x000#12, .word, w⟩
  | .bus sel wdata => ⟨if sel.getLsbD 12 then .wr else .rd, sel.extractLsb' 0 12, .word, wdata⟩

/-- The bits of an opcode-table row as an encoding: a CMD row has 32 bits. A BUS row has the 13 bits of SEL
in two bytes (the three bits above them 0), and the data word of a WR counts on from bit 16. -/
def tableEncoding (nbits w : Nat) : Option Encoding :=
  if nbits = 32 then some (.cmd (BitVec.ofNat 32 w))
  else if nbits = 16 then
    if w < 2 ^ 13 then some (.bus (BitVec.ofNat 13 w) 0#32) else none
  else if nbits = 48 then
    if w % 2 ^ 16 < 2 ^ 13 then some (.bus (BitVec.ofNat 13 (w % 2 ^ 16)) (BitVec.ofNat 32 (w / 2 ^ 16)))
    else none
  else none

/-- The instruction that the decoder reads from the bits of an opcode-table row. -/
def decodeTableWord (nbits w : Nat) : Option Instr :=
  match tableEncoding nbits w with
  | some e => (decode e).toOption
  | none => none

/-- A row of the opcode table: mnemonic, match and mask. -/
structure OpcodeRow where
  mnemonic : String
  value    : Nat
  mask     : Nat
deriving DecidableEq, Repr

/-- The opcode-table row of an instruction (30_encoding.md R74; 44_output.md R202 to R206). -/
def Instr.row : Instr → OpcodeRow
  | .begin_ => ⟨"BEGIN", 0x01000000, 0xFFFFFFFF⟩
  | .keyb _ => ⟨"KEYB", 0x02000000, 0xFFFFFF00⟩
  | .keyend => ⟨"KEYEND", 0x03000000, 0xFFFFFFFF⟩
  | .msgb _ => ⟨"MSGB", 0x04000000, 0xFFFFFF00⟩
  | .finish => ⟨"FINISH", 0x05000000, 0xFFFFFFFF⟩
  | .clear => ⟨"CLEAR", 0x06000000, 0xFFFFFFFF⟩
  | .rdCmd => ⟨"RD_CMD", 0x0000, 0x1FFF⟩
  | .rdStatus => ⟨"RD_STATUS", 0x0004, 0x1FFF⟩
  | .rdHex _ => ⟨"RD_HEX", 0x0100, 0x1F03⟩
  | .wrCmd _ => ⟨"WR_CMD", 0x1000, 0x1FFF⟩
  | .wrStatus _ => ⟨"WR_STATUS", 0x1004, 0x1FFF⟩
  | .wrHex _ _ => ⟨"WR_HEX", 0x1100, 0x1F03⟩

/-- The bits that the opcode table's match and mask speak of: the command word, or SEL. -/
def Encoding.bits : Encoding → Nat
  | .cmd w => w.toNat
  | .bus sel _ => sel.toNat

end Sys2Proof
end

