-- ==== Sys2Proof/Machine/State.lean ====
section
/-! DEFINITION. The state of the engine (10_state.md), the inputs it has still to see, the reasons a step can
stop, and the state after reset (10_state.md R37). -/

namespace Sys2Proof.Machine

open Sys2Proof

/-- PHASE (10_state.md R22). It holds one of five values; 5, 6 and 7 are never held. -/
inductive Phase where
  /-- 0: no computation open. -/
  | idle
  /-- 1: collecting key bytes. -/
  | key
  /-- 2: collecting message bytes. -/
  | msg
  /-- 3: result available. -/
  | done
  /-- 4: a protocol error ended the computation. -/
  | error
deriving DecidableEq, Repr

/-- ERRCODE (10_state.md R23). It holds one of five values; 5 to 15 are never held. -/
inductive ErrCode where
  /-- 0: no error. -/
  | none
  /-- 1. -/
  | illegalOpcode
  /-- 2. -/
  | reservedOperand
  /-- 3. -/
  | sequence
  /-- 4. -/
  | length
deriving DecidableEq, Repr

/-- What reaches the engine from outside, in bus order (20_memory.md R57; 70_reset_and_hazards.md R250, R251). -/
inductive Input where
  /-- A transaction of the window (20_memory.md R51). -/
  | txn (t : Txn)
  /-- A host access at an address; inside the window it is the transaction at its offset
  (00_scope.md R12; 20_memory.md R50). -/
  | access (a : HostAccess)
  /-- Reset is asserted between transactions (70_reset_and_hazards.md R250), or again (log entry 17). -/
  | resetAssert
  /-- Reset is asserted while the transaction is in progress (70_reset_and_hazards.md R251), or again (log entry 17). -/
  | resetCut (t : Txn)
  /-- Reset is released (70_reset_and_hazards.md R250). -/
  | resetRelease
deriving DecidableEq, Repr

/-- The engine's state elements (10_state.md R22 to R29), then the model's own fields for the interface. -/
structure State where
  /-- PHASE, 3 bits (R22). -/
  phase   : Phase
  /-- ERRCODE, 4 bits (R23). -/
  errCode : ErrCode
  /-- H[0..7], the chaining value (R24). -/
  h       : Chain
  /-- BUF[0..63], the block buffer (R25). -/
  buf     : Vector Byte 64
  /-- BCNT, the number of valid bytes at the front of BUF (R26). -/
  bcnt    : BitVec 7
  /-- LEN, the number of bytes absorbed (R27). -/
  len     : BitVec 61
  /-- KP[0..63], the normalized key K' (R28). -/
  kp      : Vector Byte 64
  /-- D[0..31], the final digest (R29). -/
  d       : Vector Byte 32
  /-- The response of the latest input, or none where it has none (20_memory.md R51; log entry 5). -/
  response  : Option Response
  /-- The reset input is asserted, so no transaction is accepted (70_reset_and_hazards.md R250; log entry 3). -/
  inReset   : Bool
  /-- The inputs still to come, in bus order: the order ARB has chosen (20_memory.md R57; log entry 1). -/
  pending   : List Input
  /-- The index of the next free value (log entry 4). -/
  freeCount : Nat
deriving DecidableEq, Repr

/-- No instruction of the engine stops it: every transaction completes (70_reset_and_hazards.md R258) and no
behaviour is treated as stuck (93_implementation_defined.md, end of part 1). So there is no fault to name. -/
inductive Fault where
deriving DecidableEq, Repr

/-- Why the model answers no next state. -/
inductive Refusal where
  /-- Raised by an arm of exec whose instruction has no meaning yet; no arm is so. Safe. -/
  | notModelled (mnemonic : String)
  /-- Raised by step for a host access at an address outside the window: it is no transaction to this engine, and
  the platform decides what it does (20_memory.md R53; 93_implementation_defined.md U14). Safe. -/
  | outsideWindow
deriving DecidableEq, Repr

/-- The machine right after reset (10_state.md R37; 70_reset_and_hazards.md R252). The model's own fields: no response
yet, reset released, nothing pending, no free value used (log entries 1, 3, 4, 5). -/
def State.reset : State where
  phase := .idle
  errCode := .none
  h := Vector.replicate 8 0#32
  buf := Vector.replicate 64 0#8
  bcnt := 0#7
  len := 0#61
  kp := Vector.replicate 64 0#8
  d := Vector.replicate 32 0#8
  response := none
  inReset := false
  pending := []
  freeCount := 0

end Sys2Proof.Machine
end

