-- ==== Sys2Proof/Machine/Flags.lean ====
section
/-! DEFINITION. The only flags of the engine: the two fields of STATUS (10_state.md R21, R35). -/

namespace Sys2Proof.Machine

open Sys2Proof

/-- The 3 bits of PHASE (10_state.md R22). -/
def Phase.code : Phase → BitVec 3
  | .idle => 0#3
  | .key => 1#3
  | .msg => 2#3
  | .done => 3#3
  | .error => 4#3

/-- The 4 bits of ERRCODE (10_state.md R23). -/
def ErrCode.code : ErrCode → BitVec 4
  | .none => 0#4
  | .illegalOpcode => 1#4
  | .reservedOperand => 2#4
  | .sequence => 3#4
  | .length => 4#4

/-- What a read of STATUS returns: ERRCODE in bits 11:8, PHASE in bits 2:0, every other bit 0
(10_state.md R35; 44_output.md R203). -/
def statusWord (s : State) : Word :=
  (s.errCode.code.setWidth 32 <<< 8) ||| s.phase.code.setWidth 32

end Sys2Proof.Machine
end

