-- ==== Sys2Proof/Machine/Operands.lean ====
section
/-! DEFINITION. Operand forms: the hex encoder's view of D by the index c (44_output.md R200, R201), the byte strings
of the internal arrays (00_scope.md R11), and the offset of a host address (20_memory.md R50). -/

namespace Sys2Proof.Machine

open Sys2Proof

/-- An array of n bytes from a byte string, zeros after its end. -/
def fitBytes (n : Nat) (s : List Byte) : Vector Byte n :=
  ⟨((s ++ List.replicate n 0#8).take n).toArray, by simp⟩

/-- BUF[0..n) (00_scope.md R11). -/
def bufPrefix (s : State) (n : Nat) : List Byte := s.buf.toList.take n

/-- BUF[0..BCNT), the tail of the current hash input (00_scope.md, glossary; 10_state.md R26). -/
def tail (s : State) : List Byte := bufPrefix s s.bcnt.toNat

/-- HexChar(n) (44_output.md R200). -/
def hexChar (n : BitVec 4) : Byte :=
  if n ≤ 9#4 then 0x30#8 + n.setWidth 8 else 0x61#8 + (n.setWidth 8 - 10#8)

/-- The nibble of D that character c shows: the most significant one of byte c >> 1 for an even c
(44_output.md R201). -/
def hexNibble (d : List Byte) (c : Nat) : BitVec 4 :=
  let b := d.getD (c / 2) 0#8
  if c % 2 = 0 then b.extractLsb' 4 4 else b.extractLsb' 0 4

/-- Hex(D)[c] (44_output.md R201). -/
def hexDigit (d : List Byte) (c : Nat) : Byte := hexChar (hexNibble d c)

/-- What a read of HEX[c] returns (44_output.md R202; 10_state.md R36). -/
def hexWord (s : State) (c : Nat) : Word :=
  if s.phase = .done then (hexDigit s.d.toList c).setWidth 32 else 0#32

/-- The offset of a host address in the window at BASE, if it is in the window (20_memory.md R50, R53). -/
def windowOffset (addr : Nat) : Option (BitVec 12) :=
  if Config.base ≤ addr ∧ addr < Config.base + Config.windowSize then
    some (BitVec.ofNat 12 (addr - Config.base))
  else none

/-- The transaction that a host access is, if its address is in the window (00_scope.md R12; 20_memory.md R51). -/
def txnOfAccess (a : HostAccess) : Option Txn :=
  match windowOffset a.addr with
  | some off => some ⟨a.kind, off, a.size, a.wdata⟩
  | none => none

end Sys2Proof.Machine
end

