-- ==== Sys2Proof/Machine/Sha256.lean ====
section
/-! DEFINITION. SHA-256: word functions, constants, byte order, message schedule, compression, padding formatter
and finalization (40_sha256_core.md R100 to R116). All are pure functions of the engine's internals. -/

namespace Sys2Proof.Machine

open Sys2Proof

/-- ROTR_n(x) (40_sha256_core.md R101). -/
def rotr (n : Nat) (x : Word) : Word := (x >>> n) ||| (x <<< (32 - n))

/-- SHR_n(x) (40_sha256_core.md R101). -/
def shr (n : Nat) (x : Word) : Word := x >>> n

/-- Ch(x, y, z) (40_sha256_core.md R102). -/
def ch (x y z : Word) : Word := (x &&& y) ^^^ (~~~x &&& z)

/-- Maj(x, y, z) (40_sha256_core.md R102). -/
def maj (x y z : Word) : Word := (x &&& y) ^^^ (x &&& z) ^^^ (y &&& z)

/-- Σ0(x) (40_sha256_core.md R103). -/
def bigSigma0 (x : Word) : Word := rotr 2 x ^^^ rotr 13 x ^^^ rotr 22 x

/-- Σ1(x) (40_sha256_core.md R103). -/
def bigSigma1 (x : Word) : Word := rotr 6 x ^^^ rotr 11 x ^^^ rotr 25 x

/-- σ0(x) (40_sha256_core.md R104). -/
def smallSigma0 (x : Word) : Word := rotr 7 x ^^^ rotr 18 x ^^^ shr 3 x

/-- σ1(x) (40_sha256_core.md R104). -/
def smallSigma1 (x : Word) : Word := rotr 17 x ^^^ rotr 19 x ^^^ shr 10 x

/-- The round constants K[0..63] (40_sha256_core.md R105), a row of the table a line. -/
def roundConstants : List Word :=
  [0x428a2f98#32, 0x71374491#32, 0xb5c0fbcf#32, 0xe9b5dba5#32, 0x3956c25b#32, 0x59f111f1#32, 0x923f82a4#32, 0xab1c5ed5#32]  ++
  [0xd807aa98#32, 0x12835b01#32, 0x243185be#32, 0x550c7dc3#32, 0x72be5d74#32, 0x80deb1fe#32, 0x9bdc06a7#32, 0xc19bf174#32]  ++
  [0xe49b69c1#32, 0xefbe4786#32, 0x0fc19dc6#32, 0x240ca1cc#32, 0x2de92c6f#32, 0x4a7484aa#32, 0x5cb0a9dc#32, 0x76f988da#32]  ++
  [0x983e5152#32, 0xa831c66d#32, 0xb00327c8#32, 0xbf597fc7#32, 0xc6e00bf3#32, 0xd5a79147#32, 0x06ca6351#32, 0x14292967#32]  ++
  [0x27b70a85#32, 0x2e1b2138#32, 0x4d2c6dfc#32, 0x53380d13#32, 0x650a7354#32, 0x766a0abb#32, 0x81c2c92e#32, 0x92722c85#32]  ++
  [0xa2bfe8a1#32, 0xa81a664b#32, 0xc24b8b70#32, 0xc76c51a3#32, 0xd192e819#32, 0xd6990624#32, 0xf40e3585#32, 0x106aa070#32]  ++
  [0x19a4c116#32, 0x1e376c08#32, 0x2748774c#32, 0x34b0bcb5#32, 0x391c0cb3#32, 0x4ed8aa4a#32, 0x5b9cca4f#32, 0x682e6ff3#32]  ++
  [0x748f82ee#32, 0x78a5636f#32, 0x84c87814#32, 0x8cc70208#32, 0x90befffa#32, 0xa4506ceb#32, 0xbef9a3f7#32, 0xc67178f2#32]

/-- The initial chaining value H0 (40_sha256_core.md R106). -/
def initialChain : Chain :=
  #v[0x6a09e667#32, 0xbb67ae85#32, 0x3c6ef372#32, 0xa54ff53a#32,
     0x510e527f#32, 0x9b05688c#32, 0x1f83d9ab#32, 0x5be0cd19#32]

/-- The 32-bit word of four bytes, the first the most significant (40_sha256_core.md R107). -/
def wordOfBytes (b0 b1 b2 b3 : Byte) : Word :=
  (b0.setWidth 32 <<< 24) ||| (b1.setWidth 32 <<< 16) ||| (b2.setWidth 32 <<< 8) ||| b3.setWidth 32

/-- Words(block): big-endian words of a byte string (40_sha256_core.md R107). -/
def wordsOfBytes : List Byte → List Word
  | b0 :: b1 :: b2 :: b3 :: rest => wordOfBytes b0 b1 b2 b3 :: wordsOfBytes rest
  | _ => []

/-- The four bytes of a word, the most significant first (40_sha256_core.md R108). -/
def bytesOfWord (w : Word) : List Byte :=
  [w.extractLsb' 24 8, w.extractLsb' 16 8, w.extractLsb' 8 8, w.extractLsb' 0 8]

/-- Bytes(H): the 32 bytes of a chaining value (40_sha256_core.md R108). -/
def bytesOfChain (h : Chain) : List Byte := h.toList.flatMap bytesOfWord

/-- W[t] from W[0..t-1], for t ≥ 16 (40_sha256_core.md R110). -/
def scheduleNext (ws : List Word) : Word :=
  let t := ws.length
  smallSigma1 (ws.getD (t - 2) 0#32) + ws.getD (t - 7) 0#32
    + smallSigma0 (ws.getD (t - 15) 0#32) + ws.getD (t - 16) 0#32

/-- n more words of the schedule (40_sha256_core.md R110). -/
def extendSchedule : Nat → List Word → List Word
  | 0, ws => ws
  | n + 1, ws => extendSchedule n (ws ++ [scheduleNext ws])

/-- Schedule(block) = W[0..63] (40_sha256_core.md R110). -/
def schedule (block : List Byte) : List Word := extendSchedule 48 (wordsOfBytes block)

/-- The working variables (a, b, c, d, e, f, g, h) of the rounds (40_sha256_core.md R111). -/
structure Vars where
  a : Word
  b : Word
  c : Word
  d : Word
  e : Word
  f : Word
  g : Word
  h : Word
deriving DecidableEq, Repr

/-- One round with K[t] and W[t] (40_sha256_core.md R111). -/
def round (v : Vars) (kt wt : Word) : Vars :=
  let t1 := v.h + bigSigma1 v.e + ch v.e v.f v.g + kt + wt
  let t2 := bigSigma0 v.a + maj v.a v.b v.c
  ⟨t1 + t2, v.a, v.b, v.c, v.d + t1, v.e, v.f, v.g⟩

/-- The rounds for t = 0, 1, … over lists of K[t] and W[t] (40_sha256_core.md R112). -/
def rounds : List Word → List Word → Vars → Vars
  | kt :: ks, wt :: ws, v => rounds ks ws (round v kt wt)
  | _, _, v => v

/-- Compress(H, block): 64 rounds and the feed-forward addition (40_sha256_core.md R112, R113). Irreducible, so that no
comparison of two states runs it; the kernel still evaluates it. -/
@[irreducible] def compress (h : Chain) (block : List Byte) : Chain :=
  let v := rounds roundConstants (schedule block) ⟨h[0], h[1], h[2], h[3], h[4], h[5], h[6], h[7]⟩
  #v[h[0] + v.a, h[1] + v.b, h[2] + v.c, h[3] + v.d, h[4] + v.e, h[5] + v.f, h[6] + v.g, h[7] + v.h]

/-- zeros(n) (00_scope.md R11). -/
def zeros (n : Nat) : List Byte := List.replicate n 0#8

/-- s xor rep(b, len(s)) (00_scope.md R11). -/
def xorRep (s : List Byte) (b : Byte) : List Byte := s.map (· ^^^ b)

/-- be64(v): the 8 bytes of v, most significant first (40_sha256_core.md R115). -/
def be64 (v : Nat) : List Byte :=
  bytesOfWord (BitVec.ofNat 32 (v / 2 ^ 32)) ++ bytesOfWord (BitVec.ofNat 32 v)

/-- The number of zero bytes of the padding, (55 - len(tail)) mod 64 (40_sha256_core.md R115). -/
def padZeros (n : Nat) : Nat := (119 - n % 64) % 64

/-- Pad(tail, total) (40_sha256_core.md R115). -/
def pad (tail : List Byte) (total : Nat) : List Byte :=
  tail ++ [0x80#8] ++ zeros (padZeros tail.length) ++ be64 (8 * total)

/-- The first n 64-byte blocks of a byte string, in order. -/
def takeBlocks : Nat → List Byte → List (List Byte)
  | 0, _ => []
  | n + 1, s => s.take 64 :: takeBlocks n (s.drop 64)

/-- The full 64-byte blocks of a byte string, in order (40_sha256_core.md R116). -/
def blocks (s : List Byte) : List (List Byte) := takeBlocks (s.length / 64) s

/-- The blocks that Finalize compresses: a full tail first by itself, then those of the padding
(40_sha256_core.md R116). -/
def finalBlocks (tail : List Byte) (total : Nat) : List (List Byte) :=
  if tail.length = 64 then tail :: blocks (pad [] total) else blocks (pad tail total)

/-- Finalize(H, tail, total) (40_sha256_core.md R116). -/
def finalize (h : Chain) (tail : List Byte) (total : Nat) : List Byte :=
  bytesOfChain ((finalBlocks tail total).foldl compress h)

/-- H0 compressed with every full block of Pad applied to all of s, the other form that
40_sha256_core.md R118 gives of SHA256(s). -/
def sha256Padded (s : List Byte) : List Byte :=
  bytesOfChain ((blocks (pad s s.length)).foldl compress initialChain)

end Sys2Proof.Machine
end

