-- ==== Sys2Proof/Machine/Ops.lean ====
section
/-! DEFINITION. The operations the meanings share: the response, zeroization, error entry, bus error, absorption,
the pre-checks of a command, and reset. -/

namespace Sys2Proof.Machine

open Sys2Proof

/-- Response (resp, rdata) (20_memory.md R51). -/
def respond (r : Resp) (rdata : Word) (s : State) : State :=
  { s with response := some ⟨r, rdata⟩ }

/-- The response of a write to CMD, always OKAY (44_output.md R205); its rdata is 0 (95_test_vectors.md part 3;
DEDUCED, log entry 7). -/
def respondOkay (s : State) : State := respond .okay 0#32 s

/-- Zeroize() (10_state.md R30). It leaves PHASE, ERRCODE and D unchanged. -/
def zeroize (s : State) : State :=
  { s with
    h := Vector.replicate 8 0#32
    buf := Vector.replicate 64 0#8
    bcnt := 0#7
    len := 0#61
    kp := Vector.replicate 64 0#8 }

/-- D[0..31] <- 0x00 each (41_session.md R140, R141; 60_exceptions.md R226). -/
def clearDigest (s : State) : State := { s with d := Vector.replicate 32 0#8 }

/-- TAKING A PROTOCOL ERROR: `raise ProtocolError(code)` (60_exceptions.md R226). -/
def protocolError (code : ErrCode) (s : State) : State :=
  { clearDigest (zeroize s) with errCode := code, phase := .error }

/-- LEAVING to a fresh phase, ERRCODE 0 and no result: what BEGIN and CLEAR do, also out of ERROR
(60_exceptions.md R227; 41_session.md R140, R141). -/
def openPhase (p : Phase) (h : Chain) (s : State) : State :=
  { clearDigest (zeroize s) with h := h, errCode := .none, phase := p }

/-- `raise BusError`: the response is (ERROR, 0), and no state element changes (60_exceptions.md R228). -/
def busError (s : State) : State := respond .error 0#32 s

/-- The first part of Absorb: a full buffer is compressed when the next byte arrives (40_sha256_core.md R117). -/
def compressFull (s : State) : State :=
  if s.bcnt = 64#7 then { s with h := compress s.h s.buf.toList, bcnt := 0#7 } else s

/-- BUF[BCNT] <- b; BCNT <- BCNT + 1; LEN <- LEN + 1 (40_sha256_core.md R117). -/
def appendByte (b : Byte) (s : State) : State :=
  { s with
    buf := s.buf.setIfInBounds s.bcnt.toNat b
    bcnt := s.bcnt + 1#7
    len := s.len + 1#61 }

/-- Absorb(b) (40_sha256_core.md R117). -/
def absorb (b : Byte) (s : State) : State := appendByte b (compressFull s)

/-- The length check before Absorb (60_exceptions.md R223, R224). -/
def absorbBelow (limit : Nat) (b : Byte) (s : State) : State :=
  if s.len.toNat = limit then protocolError .length s else absorb b s

/-- The pre-checks of a well-formed command that is legal in one phase only: ignored in ERROR, a SEQUENCE error in any
other phase, else its effect; the response is OKAY (60_exceptions.md R222, R224, R225; 44_output.md R205). -/
def commandIn (p : Phase) (effect : State → State) (s : State) : State :=
  respondOkay
    (if s.phase = .error then s
    else if s.phase = p then effect s
    else protocolError .sequence s)

/-- SHA256(s): from H = H0, BCNT = 0, LEN = 0, Absorb every byte, then Finalize (40_sha256_core.md R118). -/
def sha256 (msg : List Byte) : List Byte :=
  let s := msg.foldl (fun s b => absorb b s) { State.reset with h := initialChain }
  finalize s.h (tail s) msg.length

/-- Every state element at its reset value (70_reset_and_hazards.md R250). The inputs still to come and the index
of the next free value are not the engine's. -/
def hardReset (s : State) : State :=
  { State.reset with pending := s.pending, freeCount := s.freeCount }

/-- Reset is asserted between transactions (70_reset_and_hazards.md R250; log entry 3). DESIGN CHOICE: while it is
asserted already, it resets again (log entry 17). -/
def assertReset (s : State) : State := { hardReset s with inReset := true }

/-- Reset is asserted while a transaction is in progress: its response is a free value
(70_reset_and_hazards.md R251; log entry 4). DESIGN CHOICE: while reset is asserted already, it resets again and that
transaction gets a free response too (log entry 17). -/
def cutByReset (s : State) : State :=
  { hardReset s with
    inReset := true
    response := Config.cutResponse s.freeCount
    freeCount := s.freeCount + 1 }

/-- No response, and no state element changes: a transaction that arrives while reset is asserted
(70_reset_and_hazards.md R250). -/
def notAccepted (s : State) : State := { s with response := none }

/-- Reset is released (70_reset_and_hazards.md R250). A release of a reset that is not asserted is no event. -/
def releaseReset (s : State) : State :=
  if s.inReset then hardReset s else notAccepted s

end Sys2Proof.Machine
end

