-- ==== Sys2Proof/Machine/Key.lean ====
section
/-! DEFINITION. Key normalization, the inner pad, and the commands KEYB and KEYEND (42_key.md). -/

namespace Sys2Proof.Machine

open Sys2Proof

/-- Knorm(k) (42_key.md R160). -/
def knorm (k : List Byte) : List Byte :=
  if k.length > 64 then sha256 k ++ zeros 32 else k ++ zeros (64 - k.length)

/-- innerPad = K' xor ipad (42_key.md R161). -/
def innerPad (k : List Byte) : List Byte := xorRep (knorm k) Config.ipad

/-- KEYB b: append one key byte (42_key.md R162). -/
def execKeyb (b : Byte) (s : State) : Host.Outcome State Fault Refusal :=
  .next (commandIn .key (absorbBelow Config.lmaxKey b) s)

/-- The K' that KEYEND forms from the key in the engine's state (42_key.md R163). -/
def keyFromState (s : State) : List Byte :=
  if s.len.toNat ≤ 64 then bufPrefix s s.len.toNat ++ zeros (64 - s.len.toNat)
  else finalize s.h (tail s) s.len.toNat ++ zeros 32

/-- The pseudocode of KEYEND (42_key.md R163). -/
def closeKey (s : State) : State :=
  let kp := keyFromState s
  { zeroize s with
    kp := fitBytes 64 kp
    h := compress initialChain (xorRep kp Config.ipad)
    phase := .msg }

/-- KEYEND: close the key, form K' and start the inner hash (42_key.md R163). -/
def execKeyend (s : State) : Host.Outcome State Fault Refusal :=
  .next (commandIn .key closeKey s)

end Sys2Proof.Machine
end

