-- ==== Sys2Proof/Machine/Message.lean ====
section
/-! DEFINITION. The outer pad, HMAC, and the commands MSGB and FINISH (43_message.md). -/

namespace Sys2Proof.Machine

open Sys2Proof

/-- outerPad = K' xor opad (43_message.md R180). -/
def outerPad (k : List Byte) : List Byte := xorRep (knorm k) Config.opad

/-- innerDigest = SHA256(innerPad ++ m) (43_message.md R181). -/
def innerDigest (k m : List Byte) : List Byte := sha256 (innerPad k ++ m)

/-- HMAC(k, m) (43_message.md R182). -/
def hmac (k m : List Byte) : List Byte := sha256 (outerPad k ++ innerDigest k m)

/-- MSGB b: append one message byte (43_message.md R183). -/
def execMsgb (b : Byte) (s : State) : Host.Outcome State Fault Refusal :=
  .next (commandIn .msg (absorbBelow Config.lmaxMsg b) s)

/-- The inner digest that FINISH forms from the engine's state (43_message.md R184, step 5). -/
def innerFromState (s : State) : List Byte := finalize s.h (tail s) (64 + s.len.toNat)

/-- The pseudocode of FINISH (43_message.md R184). -/
def publish (s : State) : State :=
  let ho := compress initialChain (xorRep s.kp.toList Config.opad)
  { zeroize s with
    d := fitBytes 32 (finalize ho (innerFromState s) 96)
    phase := .done }

/-- FINISH: close the message, compute both hashes and publish the result (43_message.md R184). -/
def execFinish (s : State) : Host.Outcome State Fault Refusal :=
  .next (commandIn .msg publish s)

end Sys2Proof.Machine
end

