-- ==== Sys2Proof/Machine/Session.lean ====
section
/-! DEFINITION. The session commands BEGIN and CLEAR (41_session.md). Both are legal in every phase. -/

namespace Sys2Proof.Machine

open Sys2Proof

/-- BEGIN: open a new computation (41_session.md R140). -/
def execBegin (s : State) : Host.Outcome State Fault Refusal :=
  .next (respondOkay (openPhase .key initialChain s))

/-- CLEAR: discard everything and return to IDLE (41_session.md R141). -/
def execClear (s : State) : Host.Outcome State Fault Refusal :=
  .next (respondOkay (openPhase .idle (Vector.replicate 8 0#32) s))

end Sys2Proof.Machine
end

