-- ==== Sys2Proof/Machine/Output.lean ====
section
/-! DEFINITION. The register accesses (44_output.md): reads of CMD, STATUS and HEX, the write of CMD with ExecCmd
(60_exceptions.md R224), and the writes to read-only registers. -/

namespace Sys2Proof.Machine

open Sys2Proof

/-- RD CMD returns 0 (44_output.md R204). -/
def execRdCmd (s : State) : Host.Outcome State Fault Refusal :=
  .next (respond .okay 0#32 s)

/-- RD STATUS (44_output.md R203). -/
def execRdStatus (s : State) : Host.Outcome State Fault Refusal :=
  .next (respond .okay (statusWord s) s)

/-- RD HEX[c] (44_output.md R202). There is no register HEX[c] with c above 63: the offset 0x100 + 4·c is then
unmapped (20_memory.md R53), and the decoder never gives such an index. -/
def execRdHex (c : Nat) (s : State) : Host.Outcome State Fault Refusal :=
  .next (if hexIndexOk c then respond .okay (hexWord s c) s else busError s)

/-- ExecCmd's last line: the decoded command runs, with its own phase and length checks
(60_exceptions.md R224). -/
def performCommand (c : Command) (s : State) : Host.Outcome State Fault Refusal :=
  match c with
  | .begin_ => execBegin s
  | .keyb b => execKeyb b s
  | .keyend => execKeyend s
  | .msgb b => execMsgb b s
  | .finish => execFinish s
  | .clear => execClear s

/-- The code of a word that is no command (60_exceptions.md R221). -/
def cmdErrorCode : CmdError → ErrCode
  | .illegal => .illegalOpcode
  | .reservedOperand => .reservedOperand

/-- WR CMD, w: ExecCmd(w), in the order of checks of 60_exceptions.md R224; the response is OKAY (44_output.md R205).
In ERROR only the exact BEGIN and CLEAR words act (60_exceptions.md R225). -/
def execWrCmd (w : Word) (s : State) : Host.Outcome State Fault Refusal :=
  if s.phase = .error then
    if w = 0x01000000#32 then execBegin s
    else if w = 0x06000000#32 then execClear s
    else .next (respondOkay s)
  else
    match decodeCmd w with
    | .error e => .next (respondOkay (protocolError (cmdErrorCode e) s))
    | .ok c => performCommand c s

/-- WR STATUS is a bus error; its data does not matter (44_output.md R206). -/
def execWrStatus (_w : Word) (s : State) : Host.Outcome State Fault Refusal :=
  .next (busError s)

/-- WR HEX[c] is a bus error, whatever the index and the data (44_output.md R206). -/
def execWrHex (_c : Nat) (_w : Word) (s : State) : Host.Outcome State Fault Refusal :=
  .next (busError s)

end Sys2Proof.Machine
end

