-- ==== Sys2Proof/Machine/Dispatch.lean ====
section
/-! DEFINITION. One arm per constructor of Instr. -/

namespace Sys2Proof.Machine

open Sys2Proof

def exec (i : Instr) (s : State) : Host.Outcome State Fault Refusal :=
  match i with
  -- session commands (41_session.md)
  | .begin_ => Sys2Proof.Machine.execBegin s
  | .clear => Sys2Proof.Machine.execClear s
  -- key commands (42_key.md)
  | .keyb b => Sys2Proof.Machine.execKeyb b s
  | .keyend => Sys2Proof.Machine.execKeyend s
  -- message commands (43_message.md)
  | .msgb b => Sys2Proof.Machine.execMsgb b s
  | .finish => Sys2Proof.Machine.execFinish s
  -- register accesses (44_output.md)
  | .rdCmd => Sys2Proof.Machine.execRdCmd s
  | .rdStatus => Sys2Proof.Machine.execRdStatus s
  | .rdHex c => Sys2Proof.Machine.execRdHex c s
  | .wrCmd w => Sys2Proof.Machine.execWrCmd w s
  | .wrStatus w => Sys2Proof.Machine.execWrStatus w s
  | .wrHex c w => Sys2Proof.Machine.execWrHex c w s

end Sys2Proof.Machine
end

