-- ==== Sys2Proof/Machine/Step.lean ====
section
/-! DEFINITION. One step: the next input in bus order is performed completely (10_state.md R20; 20_memory.md R55). -/

namespace Sys2Proof.Machine

open Sys2Proof

/-- The next input has been taken off the bus. -/
def dropInput (s : State) : State := { s with pending := s.pending.tail }

/-- A transaction reaches the engine: not accepted while reset is asserted (70_reset_and_hazards.md R250), else
decoded and executed, a bus error where it decodes to nothing (20_memory.md R52, R53). -/
def acceptTxn (t : Txn) (s : State) : Host.Outcome State Fault Refusal :=
  if s.inReset then .next (notAccepted s)
  else
    match decodeTxn t with
    | .ok i => exec i s
    | .error _ => .next (busError s)

/-- What one input does. -/
def performInput (i : Input) (s : State) : Host.Outcome State Fault Refusal :=
  match i with
  | .txn t => acceptTxn t s
  | .access a =>
    match txnOfAccess a with
    | some t => acceptTxn t s
    | none => .refused .outsideWindow
  | .resetAssert => .next (assertReset s)
  | .resetCut _ => .next (cutByReset s)
  | .resetRelease => .next (releaseReset s)

/-- One step. With no input pending nothing changes: the engine has no step of its own (10_state.md R20). -/
def step (s : State) : Host.Outcome State Fault Refusal :=
  match s.pending with
  | [] => .next s
  | i :: _ => performInput i (dropInput s)

/-- s with the instruction of an opcode-table row as the next transaction, reset released, so that the next step runs
exactly it. Bits that are no encoding place nothing. -/
def State.withFetchWord (s : State) (nbits w : Nat) : State :=
  match tableEncoding nbits w with
  | some e => { s with inReset := false, pending := .txn e.txn :: s.pending }
  | none => s

end Sys2Proof.Machine
end

