-- ==== Sys2Proof/Machine/HostSide.lean ====
section
/-! DEFINITION. What a host sends: accesses of the window (00_scope.md R12), the lines of the text form as
transactions (30_encoding.md R77), and the expansions of the pseudo-instructions (30_encoding.md R78). -/

namespace Sys2Proof.Machine

open Sys2Proof

/-- MemRead(BASE + off, 4) (00_scope.md R12). -/
def memRead (off : BitVec 12) : Input :=
  .access ⟨.rd, Config.base + off.toNat, .word, 0#32⟩

/-- MemWrite(BASE + off, 4, v) (00_scope.md R12). -/
def memWrite (off : BitVec 12) (v : Word) : Input :=
  .access ⟨.wr, Config.base + off.toNat, .word, v⟩

/-- One line of the text form (30_encoding.md R77). -/
inductive AsmLine where
  /-- `BEGIN`, `KEYB <byte>`, `KEYEND`, `MSGB <byte>`, `FINISH` or `CLEAR`. -/
  | command (c : Command)
  /-- `WR CMD, <word>`. -/
  | wrCmd (w : Word)
  /-- `RD STATUS`. -/
  | rdStatus
  /-- `RD CMD`. -/
  | rdCmd
  /-- `RD HEX[<c>]`. -/
  | rdHex (c : Fin 64)
  /-- `RD <off>` with a size suffix. -/
  | rd (off : BitVec 12) (size : Size)
  /-- `WR <off>, <word>` with a size suffix. -/
  | wr (off : BitVec 12) (w : Word) (size : Size)
deriving DecidableEq, Repr

/-- The transaction of a line. Each command assembles to one WR CMD of its word (30_encoding.md R77). -/
def AsmLine.txn : AsmLine → Txn
  | .command c => ⟨.wr, 0x000#12, .word, c.encode⟩
  | .wrCmd w => ⟨.wr, 0x000#12, .word, w⟩
  | .rdStatus => ⟨.rd, 0x004#12, .word, 0#32⟩
  | .rdCmd => ⟨.rd, 0x000#12, .word, 0#32⟩
  | .rdHex c => ⟨.rd, 0x100#12 + BitVec.ofNat 12 (4 * c.val), .word, 0#32⟩
  | .rd off size => ⟨.rd, off, size, 0#32⟩
  | .wr off w size => ⟨.wr, off, size, w⟩

/-- A hex literal of the text form with so many digits (00_scope.md R10; 30_encoding.md R77). -/
def hexText (digits v : Nat) : String :=
  "0x" ++ String.ofList ((List.range digits).reverse.map fun i =>
    "0123456789abcdef".toList.getD (v / 16 ^ i % 16) '0')

/-- The size suffix of a raw transaction (30_encoding.md R77). -/
def Size.suffix : Size → String
  | .byte => " .b"
  | .half => " .h"
  | .word => " .w"

/-- A line as text, every byte as a hex literal (30_encoding.md R77). -/
def AsmLine.text : AsmLine → String
  | .command .begin_ => "BEGIN"
  | .command (.keyb b) => "KEYB " ++ hexText 2 b.toNat
  | .command .keyend => "KEYEND"
  | .command (.msgb b) => "MSGB " ++ hexText 2 b.toNat
  | .command .finish => "FINISH"
  | .command .clear => "CLEAR"
  | .wrCmd w => "WR CMD, " ++ hexText 8 w.toNat
  | .rdStatus => "RD STATUS"
  | .rdCmd => "RD CMD"
  | .rdHex c => "RD HEX[" ++ toString c.val ++ "]"
  | .rd off size => "RD " ++ hexText 3 off.toNat ++ Size.suffix size
  | .wr off w size => "WR " ++ hexText 3 off.toNat ++ ", " ++ hexText 8 w.toNat ++ Size.suffix size

/-- KEYBYTES, and KEYSTR on the bytes of its text (30_encoding.md R78). -/
def keyBytes (k : List Byte) : List AsmLine := k.map fun b => .command (.keyb b)

/-- MSGBYTES, and MSGSTR on the bytes of its text (30_encoding.md R78). -/
def msgBytes (m : List Byte) : List AsmLine := m.map fun b => .command (.msgb b)

/-- The first part of HMAC: BEGIN, the key, KEYEND (30_encoding.md R78). -/
def keyLines (k : List Byte) : List AsmLine :=
  [.command .begin_] ++ keyBytes k ++ [.command .keyend]

/-- HMAC <key>, <msg> (30_encoding.md R78). -/
def hmacLines (k m : List Byte) : List AsmLine :=
  keyLines k ++ msgBytes m ++ [.command .finish]

/-- READHEX (30_encoding.md R78). -/
def readHexLines : List AsmLine := (List.finRange 64).map .rdHex

/-- The lines as inputs of the engine, in program order (20_memory.md R57). -/
def inputsOf (lines : List AsmLine) : List Input := lines.map fun l => .txn l.txn

end Sys2Proof.Machine
end

