-- ==== Sys2Proof/Machine/Work.lean ====
section
/-! DEFINITION. Work in compressions (70_reset_and_hazards.md R257), counted on the block lists that the meanings
compress. It is no timing and no state. -/

namespace Sys2Proof.Machine

open Sys2Proof

/-- The compressions of Absorb: one for a full buffer (40_sha256_core.md R117). -/
def absorbWork (s : State) : Nat := if s.bcnt = 64#7 then 1 else 0

/-- The compressions of Finalize: one for each of its blocks (40_sha256_core.md R116). -/
def finalizeWork (tail : List Byte) (total : Nat) : Nat := (finalBlocks tail total).length

/-- The compressions of KEYEND's pseudocode (42_key.md R163). -/
def closeKeyWork (s : State) : Nat :=
  (if s.len.toNat ≤ 64 then 0 else finalizeWork (tail s) s.len.toNat) + 1

/-- The compressions of FINISH's pseudocode (43_message.md R184). -/
def publishWork (s : State) : Nat :=
  finalizeWork (tail s) (64 + s.len.toNat) + 1 + finalizeWork (innerFromState s) 96

/-- The compressions of a command: none where its pre-checks refuse or ignore it. -/
def commandWork (c : Command) (s : State) : Nat :=
  match c with
  | .begin_ => 0
  | .clear => 0
  | .keyb _ => if s.phase = .key ∧ s.len.toNat ≠ Config.lmaxKey then absorbWork s else 0
  | .keyend => if s.phase = .key then closeKeyWork s else 0
  | .msgb _ => if s.phase = .msg ∧ s.len.toNat ≠ Config.lmaxMsg then absorbWork s else 0
  | .finish => if s.phase = .msg then publishWork s else 0

/-- The compressions of an instruction (70_reset_and_hazards.md R257). -/
def instrWork (i : Instr) (s : State) : Nat :=
  match i with
  | .begin_ => commandWork .begin_ s
  | .keyb b => commandWork (.keyb b) s
  | .keyend => commandWork .keyend s
  | .msgb b => commandWork (.msgb b) s
  | .finish => commandWork .finish s
  | .clear => commandWork .clear s
  | .wrCmd w =>
    match decodeCmd w with
    | .ok c => commandWork c s
    | .error _ => 0
  | .rdCmd | .rdStatus | .rdHex _ | .wrStatus _ | .wrHex _ _ => 0

/-- The compressions of a transaction that reaches the engine. -/
def txnWork (t : Txn) (s : State) : Nat :=
  if s.inReset then 0
  else
    match decodeTxn t with
    | .ok i => instrWork i s
    | .error _ => 0

/-- The compressions of one step. -/
def stepWork (s : State) : Nat :=
  match s.pending with
  | .txn t :: _ => txnWork t s
  | .access a :: _ =>
    match txnOfAccess a with
    | some t => txnWork t s
    | none => 0
  | _ => 0

/-- The compressions of k steps. -/
def runWork : Nat → State → Nat
  | 0, _ => 0
  | k + 1, s =>
    match step s with
    | .next s' => stepWork s + runWork k s'
    | _ => stepWork s

end Sys2Proof.Machine
end

