-- ==== Sys2Proof/Safety.lean ====
section
/-! DEFINITION. What a safe state and a safe run are, in the terms the statements use: the phase invariants of
10_state.md R31, what two states share, and what a host observes. -/

namespace Sys2Proof.Machine

open Sys2Proof

/-- c(n) of 10_state.md R31: the number of bytes in the buffer after n bytes. -/
def bufferedCount (n : Nat) : Nat := if n = 0 then 0 else (n - 1) % 64 + 1

/-- The working state is erased (10_state.md R30). -/
def WorkingErased (s : State) : Prop :=
  s.h = Vector.replicate 8 0#32 ∧ s.buf = Vector.replicate 64 0#8 ∧ s.bcnt = 0#7 ∧ s.len = 0#61 ∧
    s.kp = Vector.replicate 64 0#8

/-- The digest is erased. -/
def DigestErased (s : State) : Prop := s.d = Vector.replicate 32 0#8

/-- The state has absorbed the byte string x from the chaining value h0: the H, BUF, BCNT and LEN columns of the KEY and
MSG rows of 10_state.md R31. -/
def Streaming (h0 : Chain) (x : List Byte) (s : State) : Prop :=
  let full := x.length - bufferedCount x.length
  s.h = (takeBlocks (full / 64) x).foldl compress h0 ∧
    tail s = x.drop full ∧ s.bcnt.toNat = bufferedCount x.length ∧ s.len.toNat = x.length

/-- The KEY row of 10_state.md R31 for the key bytes k. -/
def KeyRow (k : List Byte) (s : State) : Prop :=
  k.length ≤ Config.lmaxKey ∧ Streaming initialChain k s ∧ s.kp = Vector.replicate 64 0#8

/-- The MSG row of 10_state.md R31 for the key k and the message bytes m. -/
def MsgRow (k m : List Byte) (s : State) : Prop :=
  k.length ≤ Config.lmaxKey ∧ m.length ≤ Config.lmaxMsg ∧
    Streaming (compress initialChain (innerPad k)) m s ∧ s.kp.toList = knorm k

/-- The phase invariants (10_state.md R31). -/
def PhaseInv (s : State) : Prop :=
  match s.phase with
  | .idle => s.errCode = .none ∧ WorkingErased s ∧ DigestErased s
  | .key => s.errCode = .none ∧ (∃ k, KeyRow k s) ∧ DigestErased s
  | .msg => s.errCode = .none ∧ (∃ k m, MsgRow k m s) ∧ DigestErased s
  | .done => s.errCode = .none ∧ WorkingErased s ∧
      ∃ k m, k.length ≤ Config.lmaxKey ∧ m.length ≤ Config.lmaxMsg ∧ s.d.toList = hmac k m
  | .error => s.errCode ≠ .none ∧ WorkingErased s ∧ DigestErased s

/-- ERRCODE ≠ 0 exactly when PHASE = ERROR (10_state.md R23). -/
abbrev ErrCodeAgrees (s : State) : Prop := s.errCode ≠ .none ↔ s.phase = .error

/-- The counters are in the ranges of 10_state.md R26 and R27. -/
def CountersInRange (s : State) : Prop :=
  s.bcnt.toNat ≤ 64 ∧ s.len.toNat ≤ Config.lmaxKey ∧ (s.phase = .msg → s.len.toNat ≤ Config.lmaxMsg)

/-- Key-dependent and message-dependent state lives only inside a computation, K' only in MSG, and the digest only in
DONE (10_state.md R28, R29, R31). -/
def ErasedOutsideComputation (s : State) : Prop :=
  (s.phase ≠ .key → s.phase ≠ .msg → WorkingErased s) ∧
    (s.phase ≠ .msg → s.kp = Vector.replicate 64 0#8) ∧ (s.phase ≠ .done → DigestErased s)

/-- The eight state elements of the engine agree (10_state.md R22 to R29). -/
def SameEngine (s t : State) : Prop :=
  t.phase = s.phase ∧ t.errCode = s.errCode ∧ t.h = s.h ∧ t.buf = s.buf ∧ t.bcnt = s.bcnt ∧ t.len = s.len ∧
    t.kp = s.kp ∧ t.d = s.d

/-- The model's own fields for the world outside agree. -/
abbrev SameOutside (s t : State) : Prop :=
  t.inReset = s.inReset ∧ t.pending = s.pending ∧ t.freeCount = s.freeCount

/-- All that the rules read agrees: every element but the bytes of BUF at and beyond BCNT
(93_implementation_defined.md U9). -/
def SameButStaleBytes (s t : State) : Prop :=
  t.phase = s.phase ∧ t.errCode = s.errCode ∧ t.h = s.h ∧ tail t = tail s ∧ t.bcnt = s.bcnt ∧ t.len = s.len ∧
    t.kp = s.kp ∧ t.d = s.d ∧ t.response = s.response ∧ SameOutside s t

/-- In KEY phase, a key of at most 64 bytes is wholly in BUF (42_key.md R163, the remark after its pseudocode). -/
def ShortKeyBuffered (s : State) : Prop :=
  s.phase = .key → s.len.toNat ≤ 64 → s.bcnt.toNat = s.len.toNat

/-- The response (OKAY, rdata). -/
def okay (rdata : Word) : Option Response := some ⟨.okay, rdata⟩

/-- The response of a bus error (60_exceptions.md R228). -/
def busErrorResponse : Option Response := some ⟨.error, 0#32⟩

/-- The machine after k steps, stopping at the first that answers no next state. -/
def runSteps : Nat → State → Host.Outcome State Fault Refusal
  | 0, s => .next s
  | k + 1, s =>
    match step s with
    | .next s' => runSteps k s'
    | .fault r => .fault r
    | .refused r => .refused r

/-- The responses of k steps, in order: all that a host observes. A run that stops shows no more. -/
def responses : Nat → State → List (Option Response)
  | 0, _ => []
  | k + 1, s =>
    match step s with
    | .next s' => s'.response :: responses k s'
    | _ => []

/-- The transaction that an input brings to the engine. -/
def inputTxn : Input → Option Txn
  | .txn t => some t
  | .access a => txnOfAccess a
  | .resetAssert | .resetCut _ | .resetRelease => none

/-- The input is an event of the reset line (70_reset_and_hazards.md R250, R251). -/
def isResetInput : Input → Bool
  | .resetAssert | .resetCut _ | .resetRelease => true
  | .txn _ | .access _ => false

/-- The transaction writes the word w to CMD (44_output.md R205). -/
abbrev writesCmd (t : Txn) (w : Word) : Prop := t = ⟨.wr, 0x000#12, .word, w⟩

/-- The word that an input writes to CMD, if it is a command (30_encoding.md R70; 44_output.md R205). -/
def commandWord (i : Input) : Option Word :=
  match inputTxn i with
  | some ⟨.wr, 0x000#12, .word, w⟩ => some w
  | some _ => none
  | none => none

/-- The inputs are transactions of the window, among them exactly the commands of these lines, in order: between them a
host may read, or meet bus errors. -/
def CarriesCommands (lines : List AsmLine) (ins : List Input) : Prop :=
  (∀ i ∈ ins, (inputTxn i).isSome = true) ∧
    ins.filterMap commandWord = (inputsOf lines).filterMap commandWord

/-- The table of 60_exceptions.md R222 for well-formed commands: the next phase, or none for a SEQUENCE error. The
column ERROR, where the command is ignored, repeats ERROR. -/
def phaseTable : Command → Phase → Option Phase
  | .begin_, _ => some .key
  | .clear, _ => some .idle
  | .keyb _, .key => some .key
  | .keyend, .key => some .msg
  | .msgb _, .msg => some .msg
  | .finish, .msg => some .done
  | _, .error => some .error
  | _, _ => none

/-- What Absorb(b) leaves and writes (40_sha256_core.md R117), seen by a command: the buffered bytes, the counters and the
chaining value; every other byte of BUF (stale ones too, log entry 6), PHASE, ERRCODE, KP and D stay; the response is
(OKAY, 0), its rdata by log entry 7. -/
def AbsorbedByte (b : Byte) (s t : State) : Prop :=
  (s.bcnt.toNat = 64 → t.h = compress s.h s.buf.toList ∧ tail t = [b] ∧ t.bcnt.toNat = 1) ∧
    (s.bcnt.toNat < 64 → t.h = s.h ∧ tail t = tail s ++ [b] ∧ t.bcnt.toNat = s.bcnt.toNat + 1) ∧
    (∀ i : Fin 64, i.val ≠ s.bcnt.toNat % 64 → t.buf[i] = s.buf[i]) ∧
    t.len.toNat = s.len.toNat + 1 ∧ t.phase = s.phase ∧ t.errCode = s.errCode ∧ t.kp = s.kp ∧ t.d = s.d ∧
    SameOutside s t ∧ t.response = okay 0#32

/-- The state after error entry with the code (60_exceptions.md R226), seen by a command; the rdata of its response is
log entry 7. -/
def ErrorEntered (code : ErrCode) (s t : State) : Prop :=
  t.phase = .error ∧ t.errCode = code ∧ WorkingErased t ∧ DigestErased t ∧ SameOutside s t ∧ t.response = okay 0#32

/-- WR CMD of a word with a 1 in its reserved bits: a RESERVED_OPERAND error, and ignored in ERROR
(60_exceptions.md R221, R225). The rdata of the response is log entry 7. -/
def ReservedOperandChecked (w : Word) (s : State) : Prop :=
  (s.phase ≠ .error → ∃ t, exec (.wrCmd w) s = .next t ∧ ErrorEntered .reservedOperand s t) ∧
    (s.phase = .error → exec (.wrCmd w) s = .next { s with response := okay 0#32 })

/-- A command legal in the phase p only: a SEQUENCE error in another phase, and ignored in ERROR
(60_exceptions.md R222). The rdata of the response is log entry 7. -/
def LegalOnlyIn (p : Phase) (i : Instr) (s : State) : Prop :=
  (s.phase ≠ p → s.phase ≠ .error → ∃ t, exec i s = .next t ∧ ErrorEntered .sequence s t) ∧
    (s.phase = .error → exec i s = .next { s with response := okay 0#32 })

/-- The opcode of a word is illegal: 0x00 or 0x07 to 0xFF (60_exceptions.md R221, code 1). -/
abbrev illegalOpcodeWord (w : Word) : Prop := w.toNat / 2 ^ 24 = 0 ∨ 7 ≤ w.toNat / 2 ^ 24

/-- A legal opcode with a 1 in its reserved bits (60_exceptions.md R221, code 2). -/
abbrev reservedBitsWord (w : Word) : Prop :=
  (w.toNat / 2 ^ 24 ∈ [1, 3, 5, 6] ∧ w.toNat % 2 ^ 24 ≠ 0) ∨
    (w.toNat / 2 ^ 24 ∈ [2, 4] ∧ w.toNat / 2 ^ 8 % 2 ^ 16 ≠ 0)

/-- A well-formed command in a phase where it is not legal (60_exceptions.md R221, code 3; R224, third check). -/
abbrev outOfSequence (w : Word) (s : State) : Prop :=
  ¬illegalOpcodeWord w ∧ ¬reservedBitsWord w ∧
    ((w.toNat / 2 ^ 24 ∈ [2, 3] ∧ s.phase ≠ .key) ∨ (w.toNat / 2 ^ 24 ∈ [4, 5] ∧ s.phase ≠ .msg))

/-- A byte command beyond the length limit (60_exceptions.md R221, code 4; R224, fourth check). -/
abbrev beyondLength (w : Word) (s : State) : Prop :=
  ¬illegalOpcodeWord w ∧ ¬reservedBitsWord w ∧
    ((w.toNat / 2 ^ 24 = 2 ∧ s.phase = .key ∧ s.len.toNat = Config.lmaxKey) ∨
      (w.toNat / 2 ^ 24 = 4 ∧ s.phase = .msg ∧ s.len.toNat = Config.lmaxMsg))

/-- The lowercase hex digits as ASCII codes (44_output.md R207). -/
abbrev isHexCode (v : Nat) : Prop := (0x30 ≤ v ∧ v ≤ 0x39) ∨ (0x61 ≤ v ∧ v ≤ 0x66)

/-- The value of nibble c of D, most significant nibble of a byte first (44_output.md R201). -/
def digestNibble (d : List Byte) (c : Nat) : Nat :=
  if c % 2 = 0 then (d.getD (c / 2) 0#8).toNat / 16 else (d.getD (c / 2) 0#8).toNat % 16

/-- The ASCII code of a hex digit (44_output.md R200). -/
def digitCode (n : Nat) : Nat := if n ≤ 9 then 0x30 + n else 0x61 + (n - 10)

/-- A bus error is raised for the transaction: the list of 60_exceptions.md R228, in terms of the offset. -/
abbrev RaisesBusError (t : Txn) : Prop :=
  t.size ≠ .word ∨ t.off.toNat % 4 ≠ 0 ∨
    (t.off.toNat ≠ 0 ∧ t.off.toNat ≠ 4 ∧ ¬(0x100 ≤ t.off.toNat ∧ t.off.toNat ≤ 0x1FC)) ∨
    (t.kind = .wr ∧ t.off.toNat ≠ 0)

end Sys2Proof.Machine
end

