-- ==== Sys2Proof/Certificates/Slice0/Obligations.lean ====
section
/-! DEFINITION. The statements about the model, drawn from the numbered rules of the spec. -/

open Sys2Proof Sys2Proof.Machine

/-! ### Encodings -/

/-- The decoder gives back every well-formed instruction from its encoding, with every operand (30_encoding.md). -/
def Obligations.DecodeOfEncodeIsTheInstruction : Prop :=
  ∀ i : Instr, i.wellFormed = true → decode (encode i) = .ok i

/-- An encoding that decodes is the encoding of a well-formed instruction; only the unused data word of a read is not
determined by the instruction (30_encoding.md R70 to R76; log entry 13). -/
def Obligations.DecodedBitsAreTheEncoding : Prop :=
  (∀ (w : Word) (i : Instr), decode (.cmd w) = .ok i → i.wellFormed = true ∧ encode i = .cmd w) ∧
  (∀ (sel : BitVec 13) (v : Word) (i : Instr), decode (.bus sel v) = .ok i →
    i.wellFormed = true ∧ ∃ v', encode i = .bus sel v' ∧ (sel.getLsbD 12 = true → v' = v))

/-- DecodeCmd gives every word one outcome, and each command exactly its word pattern (30_encoding.md R74, R75). -/
def Obligations.EveryCommandWordHasOneOutcome : Prop :=
  ∀ w : Word,
    (decodeCmd w = .error .illegal ↔ illegalOpcodeWord w) ∧
    (decodeCmd w = .error .reservedOperand ↔ reservedBitsWord w) ∧
    (decodeCmd w = .ok .begin_ ↔ w = 0x01000000#32) ∧
    (∀ b, decodeCmd w = .ok (.keyb b) ↔ w.toNat = 0x02000000 + b.toNat) ∧
    (decodeCmd w = .ok .keyend ↔ w = 0x03000000#32) ∧
    (∀ b, decodeCmd w = .ok (.msgb b) ↔ w.toNat = 0x04000000 + b.toNat) ∧
    (decodeCmd w = .ok .finish ↔ w = 0x05000000#32) ∧
    (decodeCmd w = .ok .clear ↔ w = 0x06000000#32)

/-- Sanity: words and selectors written out from the spec's encodings decode to the instructions they stand for
(30_encoding.md R71, R72, R74; 20_memory.md R53). -/
def Obligations.WordsWrittenFromTheSpecDecode : Prop :=
  decode (.cmd 0b00000001_0000000000000000_00000000#32) = .ok .begin_ ∧
  decode (.cmd 0b00000010_0000000000000000_00001011#32) = .ok (.keyb 0x0b#8) ∧
  decode (.cmd 0b00000011_0000000000000000_00000000#32) = .ok .keyend ∧
  decode (.cmd 0b00000100_0000000000000000_01001000#32) = .ok (.msgb 0x48#8) ∧
  decode (.bus 0b0_0000_000001_00#13 0#32) = .ok .rdStatus ∧
  decode (.bus 0b0_0001_111111_00#13 0#32) = .ok (.rdHex 63) ∧
  decode (.bus 0b1_0000_000000_00#13 0x06000000#32) = .ok (.wrCmd 0x06000000#32)

/-! ### Transactions -/

/-- The step runs the instruction that the next transaction decodes to, on the state without that transaction; a
transaction that decodes to nothing is a bus error (20_memory.md R52, R53, R55). The list of inputs is the model's own
field (log entry 1). -/
def Obligations.StepRunsTheDecodedTransaction : Prop :=
  ∀ (s : State) (t : Txn) (rest : List Input), s.pending = .txn t :: rest → s.inReset = false →
    (∀ i, decodeTxn t = .ok i → step s = exec i { s with pending := rest }) ∧
    (∀ e, decodeTxn t = .error e → step s = .next { s with pending := rest, response := busErrorResponse })

/-- Placing the bits of an opcode-table row as the next transaction makes the next step run the decoded row: a command
word runs as its command (44_output.md R205; log entry 2). -/
def Obligations.PlacedTableWordRunsNext : Prop :=
  ∀ (s : State) (nbits w : Nat) (i : Instr), decodeTableWord nbits w = some i →
    step (s.withFetchWord nbits w) = exec i { s with inReset := false }

/-- Address decoding of an accepted transaction is the table of 20_memory.md R53. That a host access outside the window is
refused by name is the model's choice (log entry 8): R53 leaves it to the platform. -/
def Obligations.AcceptedOffsetsFollowTheTable : Prop :=
  (∀ (s : State) (t : Txn) (rest : List Input), s.pending = .txn t :: rest → s.inReset = false →
    t.size = .word → t.off.toNat % 4 = 0 →
    let u := { s with pending := rest }
    (t.off.toNat = 0 → step s = match t.kind with | .rd => exec .rdCmd u | .wr => exec (.wrCmd t.wdata) u) ∧
    (t.off.toNat = 4 → step s = match t.kind with | .rd => exec .rdStatus u | .wr => exec (.wrStatus t.wdata) u) ∧
    (∀ c < 64, t.off.toNat = 0x100 + 4 * c →
      step s = match t.kind with | .rd => exec (.rdHex c) u | .wr => exec (.wrHex c t.wdata) u) ∧
    (t.off.toNat ≠ 0 → t.off.toNat ≠ 4 → (∀ c < 64, t.off.toNat ≠ 0x100 + 4 * c) →
      step s = .next { u with response := busErrorResponse })) ∧
  (∀ (s : State) (a : HostAccess) (rest : List Input), s.pending = .access a :: rest →
    (a.addr < Config.base ∨ Config.base + 4096 ≤ a.addr) → step s = .refused .outsideWindow)

/-- A bus error is raised exactly for the transactions of 60_exceptions.md R228, with no state change; every other
transaction gets OKAY (20_memory.md R52). -/
def Obligations.BusErrorsAreExactlyThoseListed : Prop :=
  ∀ (s : State) (t : Txn) (rest : List Input), s.pending = .txn t :: rest → s.inReset = false →
    (RaisesBusError t → step s = .next { s with pending := rest, response := busErrorResponse }) ∧
    (¬RaisesBusError t → ∃ u v, step s = .next u ∧ u.response = okay v)

/-- A host access in the window is the transaction at its offset: MemRead and MemWrite (00_scope.md R12; 20_memory.md
R50, R51), wherever BASE is (00_scope.md R9). -/
def Obligations.HostAccessIsTheTransactionAtItsOffset : Prop :=
  ∀ (s : State) (off : BitVec 12) (v : Word) (rest : List Input),
    step { s with pending := memRead off :: rest } =
      step { s with pending := .txn ⟨.rd, off, .word, 0#32⟩ :: rest } ∧
    step { s with pending := memWrite off v :: rest } =
      step { s with pending := .txn ⟨.wr, off, .word, v⟩ :: rest }

/-- Every instruction answers a next state, and a step stops only for a host access outside the window
(60_exceptions.md R233; 70_reset_and_hazards.md R258); that it stops there is the model's choice (log entry 8). -/
def Obligations.EveryTransactionCompletes : Prop :=
  (∀ (i : Instr) (s : State), ∃ t, exec i s = .next t) ∧
  (∀ s : State, (∃ t, step s = .next t) ∨
    (step s = .refused .outsideWindow ∧
      ∃ a rest, s.pending = .access a :: rest ∧ txnOfAccess a = none))

/-- Only a write to CMD and the reset input change a state element of the engine (10_state.md R20; 20_memory.md R56). -/
def Obligations.OnlyCmdWritesAndResetChangeTheEngine : Prop :=
  ∀ s t : State, step s = .next t → ¬SameEngine s t →
    ∃ i rest, s.pending = i :: rest ∧
      (isResetInput i = true ∨ ∃ x w, inputTxn i = some x ∧ writesCmd x w ∧ s.inReset = false)

/-- The frame of every instruction: the reset line, the inputs to come and the free-value index stay, and a response is
given. K' is written only by closing the key and otherwise kept or erased; D is written only by publishing a
result and otherwise kept or erased (10_state.md R28, R29). -/
def Obligations.InstructionsWriteKeyAndDigestOnlyAsListed : Prop :=
  ∀ (i : Instr) (s t : State), exec i s = .next t →
    SameOutside s t ∧ (∃ r, t.response = some r) ∧
    (t.kp = s.kp ∨ t.kp = Vector.replicate 64 0#8 ∨ (s.phase = .key ∧ t.phase = .msg)) ∧
    (t.d = s.d ∨ DigestErased t ∨ (s.phase = .msg ∧ t.phase = .done))

/-! ### Reset -/

/-- The reset value of every piece of state and the register reads that follow (10_state.md R37). -/
def Obligations.ResetLeavesEveryElementZero : Prop :=
  State.reset.phase = .idle ∧ State.reset.errCode = .none ∧ WorkingErased State.reset ∧ DigestErased State.reset ∧
  exec .rdStatus State.reset = .next { State.reset with response := okay 0#32 } ∧
  (∀ c < 64, exec (.rdHex c) State.reset = .next { State.reset with response := okay 0#32 }) ∧
  exec .rdCmd State.reset = .next { State.reset with response := okay 0#32 }

/-- Reset from any state, however many transactions arrive while it is asserted, leaves the reset state
(70_reset_and_hazards.md R250). That such a transaction gets no response is the model's reading (log entry 3), and so is
that no response stands after reset (log entry 5) and that an assertion during reset resets again (log entry 17). -/
def Obligations.ResetFromAnyStateRestoresTheResetState : Prop :=
  ∀ (s : State) (ts : List Txn) (rest : List Input),
    s.pending = [.resetAssert] ++ ts.map .txn ++ [.resetRelease] ++ rest →
    runSteps (ts.length + 2) s =
      .next { State.reset with pending := rest, freeCount := s.freeCount } ∧
    ∀ u : State, u.inReset = true → ∀ t us, u.pending = .txn t :: us →
      step u = .next { u with pending := us, response := none }

/-- Reset inside a transaction: the response is a free value, whatever it is, and the state after reset is the reset
state (70_reset_and_hazards.md R251; log entry 4). The model's choices in it: every element has its reset value already
right after the cut, with reset still asserted (log entry 3); no response stands after the release (log entry 5); a cut
during reset is a reset again (log entry 17). -/
def Obligations.ResetInsideATransactionRestoresTheResetState : Prop :=
  ∀ (s : State) (t : Txn) (rest : List Input), s.pending = .resetCut t :: .resetRelease :: rest →
    ∃ u, step s = .next u ∧ SameEngine State.reset u ∧ u.response = Config.cutResponse s.freeCount ∧
      step u = .next { State.reset with pending := rest, freeCount := s.freeCount + 1 }

/-! ### Invariants -/

/-- The reset state meets every invariant of Safety.lean. -/
def Obligations.ResetMeetsTheInvariants : Prop :=
  PhaseInv State.reset ∧ ErrCodeAgrees State.reset ∧ CountersInRange State.reset ∧
    ErasedOutsideComputation State.reset ∧ ShortKeyBuffered State.reset

/-- Every step keeps the phase invariants of 10_state.md R31: in KEY and MSG the state is the streaming state of some
key and message, and in DONE the digest is the HMAC of some key and message. -/
def Obligations.StepKeepsThePhaseInvariants : Prop :=
  ∀ s t : State, PhaseInv s → step s = .next t → PhaseInv t

/-- Every step keeps: ERRCODE ≠ 0 exactly when PHASE = ERROR (10_state.md R23). -/
def Obligations.StepKeepsErrCodeExactlyInError : Prop :=
  ∀ s t : State, ErrCodeAgrees s → step s = .next t → ErrCodeAgrees t

/-- Every step keeps the counters in range: BCNT at most 64, LEN at most LMAX_KEY, and at most LMAX_MSG in MSG phase; and a
key of at most 64 bytes is wholly in BUF (10_state.md R26, R27; 42_key.md R163). -/
def Obligations.StepKeepsCountersInRange : Prop :=
  ∀ s t : State, CountersInRange s → ShortKeyBuffered s → step s = .next t → CountersInRange t ∧ ShortKeyBuffered t

/-- Every step keeps: working state is erased outside KEY and MSG, K' outside MSG, the digest outside DONE
(10_state.md R28, R29, R31). -/
def Obligations.StepKeepsKeyAndDigestErased : Prop :=
  ∀ s t : State, ErasedOutsideComputation s → step s = .next t → ErasedOutsideComputation t

/-! ### SHA-256 -/

/-- Rotation, shift, choice, majority and the sigma functions, bit by bit (40_sha256_core.md R101 to R104). -/
def Obligations.WordFunctionsBitByBit : Prop :=
  ∀ (x y z : Word) (i : Nat), i < 32 →
    (∀ n, 0 < n → n < 32 → (rotr n x).getLsbD i = x.getLsbD ((i + n) % 32)) ∧
    (∀ n, (shr n x).getLsbD i = x.getLsbD (i + n)) ∧
    (ch x y z).getLsbD i = (if x.getLsbD i then y.getLsbD i else z.getLsbD i) ∧
    (maj x y z).getLsbD i = decide (2 ≤ (x.getLsbD i).toNat + (y.getLsbD i).toNat + (z.getLsbD i).toNat) ∧
    (bigSigma0 x).getLsbD i =
      (x.getLsbD ((i + 2) % 32) ^^ x.getLsbD ((i + 13) % 32) ^^ x.getLsbD ((i + 22) % 32)) ∧
    (bigSigma1 x).getLsbD i =
      (x.getLsbD ((i + 6) % 32) ^^ x.getLsbD ((i + 11) % 32) ^^ x.getLsbD ((i + 25) % 32)) ∧
    (smallSigma0 x).getLsbD i =
      (x.getLsbD ((i + 7) % 32) ^^ x.getLsbD ((i + 18) % 32) ^^ x.getLsbD (i + 3)) ∧
    (smallSigma1 x).getLsbD i =
      (x.getLsbD ((i + 17) % 32) ^^ x.getLsbD ((i + 19) % 32) ^^ x.getLsbD (i + 10))

/-- The byte order inside the hash is big-endian both ways: Words(block) and Bytes(H) (40_sha256_core.md R107, R108). -/
def Obligations.HashByteOrderIsBigEndian : Prop :=
  (∀ block : List Byte, block.length = 64 →
    (wordsOfBytes block).length = 16 ∧
    ∀ t < 16, ((wordsOfBytes block).getD t 0#32).toNat =
      (block.getD (4 * t) 0#8).toNat * 2 ^ 24 + (block.getD (4 * t + 1) 0#8).toNat * 2 ^ 16 +
        (block.getD (4 * t + 2) 0#8).toNat * 2 ^ 8 + (block.getD (4 * t + 3) 0#8).toNat) ∧
  (∀ h : Chain, (bytesOfChain h).length = 32 ∧
    ∀ i : Fin 8, ∀ j < 4, ((bytesOfChain h).getD (4 * i.val + j) 0#8).toNat = h[i].toNat / 2 ^ (24 - 8 * j) % 2 ^ 8)

/-- The message schedule of a block, as the recurrence on its own words, and of the all-zero block
(40_sha256_core.md R110). -/
def Obligations.ScheduleFollowsTheRecurrence : Prop :=
  (∀ block : List Byte, block.length = 64 →
    let w := fun t => (schedule block).getD t 0#32
    (schedule block).length = 64 ∧
    (∀ t < 16, w t = (wordsOfBytes block).getD t 0#32) ∧
    (∀ t, 16 ≤ t → t < 64 → w t = smallSigma1 (w (t - 2)) + w (t - 7) + smallSigma0 (w (t - 15)) + w (t - 16))) ∧
  schedule (zeros 64) = List.replicate 64 0#32

/-- The padding formatter: one block up to 55 bytes of tail and two from 56, the byte 0x80, zeros, and the length in bits
as a 64-bit big-endian number that never wraps (40_sha256_core.md R115). -/
def Obligations.PaddingHasItsShapeAndLength : Prop :=
  ∀ (t : List Byte) (total : Nat), t.length ≤ 63 → total < 2 ^ 61 →
    let p := pad t total
    p.length = (if t.length ≤ 55 then 64 else 128) ∧
    p.take t.length = t ∧ p.getD t.length 0#8 = 0x80#8 ∧
    (∀ i, t.length < i → i < p.length - 8 → p.getD i 1#8 = 0#8) ∧
    (p.drop (p.length - 8)).foldl (fun v b => v * 256 + b.toNat) 0 = 8 * total

/-- SHA256 by Absorb and Finalize is the compression of every full block of the padded string, for every string within
SHA-256's limit (40_sha256_core.md R118). -/
def Obligations.StreamingHashIsThePaddedHash : Prop :=
  ∀ s : List Byte, s.length < 2 ^ 61 → sha256 s = sha256Padded s

/-! ### Key and HMAC functions -/

/-- Key normalization: 64 bytes, hashed only above 64, and blind to zero bytes at the end of a short key
(42_key.md R160). -/
def Obligations.NormalizedKeyFollowsTheTwoSteps : Prop :=
  (∀ k : List Byte, (knorm k).length = 64) ∧
  (∀ k : List Byte, 64 < k.length → knorm k = sha256 k ++ zeros 32) ∧
  (∀ k : List Byte, k.length ≤ 64 → knorm k = k ++ zeros (64 - k.length)) ∧
  (∀ (k : List Byte) (n : Nat), k.length + n ≤ 64 →
    knorm (k ++ zeros n) = knorm k ∧ ∀ m, hmac (k ++ zeros n) m = hmac k m)

/-- A long key and its hash give the same HMAC (43_message.md R186; 90_conflicts.md C1). -/
def Obligations.LongKeyAndItsHashAgree : Prop :=
  ∀ k m : List Byte, 64 < k.length →
    hmac k m = hmac (sha256 k) m ∧ knorm k = sha256 k ++ zeros 32 ∧ knorm (sha256 k) = sha256 k ++ zeros 32

/-- The outer hash is two compressions from H0: the outer pad, then the inner digest with its fixed padding
(43_message.md R182). -/
def Obligations.OuterHashIsTwoCompressions : Prop :=
  ∀ k m : List Byte,
    hmac k m = bytesOfChain (compress (compress initialChain (outerPad k))
      (innerDigest k m ++ [0x80#8] ++ zeros 23 ++ [0#8, 0#8, 0#8, 0#8, 0#8, 0#8, 0x03#8, 0x00#8]))

/-! ### Session commands -/

/-- BEGIN: every element after it, the STATUS it leaves, the words that are not BEGIN, and BEGIN twice
(41_session.md R140). The rdata 0 of a write is the model's choice (log entry 7). -/
def Obligations.BeginOpensAnEmptyComputation : Prop :=
  ∀ s : State,
    (∃ t, exec .begin_ s = .next t ∧ t.phase = .key ∧ t.errCode = .none ∧ t.h = initialChain ∧
      t.buf = Vector.replicate 64 0#8 ∧ t.bcnt = 0#7 ∧ t.len = 0#61 ∧ t.kp = Vector.replicate 64 0#8 ∧
      DigestErased t ∧ statusWord t = 0x00000001#32 ∧ SameOutside s t ∧ t.response = okay 0#32 ∧
      exec .begin_ t = .next t) ∧
    exec (.wrCmd 0x01000000#32) s = exec .begin_ s ∧
    (∀ w : Word, w.toNat / 2 ^ 24 = 1 → w ≠ 0x01000000#32 → ReservedOperandChecked w s)

/-- CLEAR: every element equals its reset value, and the words that are not CLEAR (41_session.md R141).
The rdata 0 of a write is the model's choice (log entry 7). -/
def Obligations.ClearIsASoftwareReset : Prop :=
  ∀ s : State,
    exec .clear s = .next { State.reset with
      response := okay 0#32, inReset := s.inReset, pending := s.pending, freeCount := s.freeCount } ∧
    exec (.wrCmd 0x06000000#32) s = exec .clear s ∧
    (∀ w : Word, w.toNat / 2 ^ 24 = 6 → w ≠ 0x06000000#32 → ReservedOperandChecked w s)

/-- What a host sees from a BEGIN on does not depend on anything before it: two machines that differ in any state element
answer alike (00_scope.md R5; 41_session.md R140). -/
def Obligations.BeginForgetsEverythingBefore : Prop :=
  ∀ (s₁ s₂ : State) (rest : List Input) (n : Nat), s₁.inReset = false → s₂.inReset = false →
    s₁.freeCount = s₂.freeCount →
    s₁.pending = inputsOf [.command .begin_] ++ rest → s₂.pending = inputsOf [.command .begin_] ++ rest →
    responses n s₁ = responses n s₂

/-! ### Key commands -/

/-- KEYB: in KEY phase it absorbs one byte below the limit, and at the limit it is a LENGTH error; its word, the words with
reserved bits, and the other phases (42_key.md R162; 60_exceptions.md R223). BCNT ≤ 64 is an invariant
(StepKeepsCountersInRange). The model's choices in it: stale bytes of BUF stay (log entry 6), and the rdata of a write
is 0 (log entry 7). -/
def Obligations.KeybAbsorbsUpToTheLimit : Prop :=
  ∀ (b : Byte) (s : State),
    (s.phase = .key → s.len.toNat < 2 ^ 61 - 1 → s.bcnt.toNat ≤ 64 →
      ∃ t, exec (.keyb b) s = .next t ∧ AbsorbedByte b s t) ∧
    (s.phase = .key → s.len.toNat = 2 ^ 61 - 1 → ∃ t, exec (.keyb b) s = .next t ∧ ErrorEntered .length s t) ∧
    LegalOnlyIn .key (.keyb b) s ∧
    (∀ w : Word, w.toNat = 0x02000000 + b.toNat → exec (.wrCmd w) s = exec (.keyb b) s) ∧
    (∀ w : Word, w.toNat / 2 ^ 24 = 2 → w.toNat / 2 ^ 8 % 2 ^ 16 ≠ 0 → ReservedOperandChecked w s)

/-- KEYEND in KEY phase, from any state: the K' it forms in each branch, the inner hash begun, everything else erased, and
the frame; K' is Knorm of the key absorbed; its word, the words with reserved bits, and the other phases
(42_key.md R163). The rdata 0 of a write is the model's choice (log entry 7). -/
def Obligations.KeyendClosesTheKey : Prop :=
  ∀ s : State,
    (s.phase = .key →
      ∃ t, exec .keyend s = .next t ∧ t.phase = .msg ∧
        (s.len.toNat ≤ 64 → t.kp.toList = s.buf.toList.take s.len.toNat ++ zeros (64 - s.len.toNat)) ∧
        (64 < s.len.toNat → t.kp.toList = finalize s.h (tail s) s.len.toNat ++ zeros 32) ∧
        t.h = compress initialChain (t.kp.toList.map (· ^^^ 0x36#8)) ∧
        t.buf = Vector.replicate 64 0#8 ∧ t.bcnt = 0#7 ∧ t.len = 0#61 ∧
        t.errCode = s.errCode ∧ t.d = s.d ∧ SameOutside s t ∧ t.response = okay 0#32 ∧
        (∀ k, KeyRow k s → t.kp.toList = knorm k ∧ MsgRow k [] t)) ∧
    LegalOnlyIn .key .keyend s ∧
    exec (.wrCmd 0x03000000#32) s = exec .keyend s ∧
    (∀ w : Word, w.toNat / 2 ^ 24 = 3 → w ≠ 0x03000000#32 → ReservedOperandChecked w s)

/-- After the commands BEGIN, the KEYB of every byte of k and KEYEND, from any state and among any other transactions: KP
and H depend on k alone, and the key bytes are no longer held (42_key.md R164). -/
def Obligations.KeyLinesLeaveTheNormalizedKey : Prop :=
  ∀ (s : State) (k : List Byte) (ins rest : List Input), k.length ≤ Config.lmaxKey → s.inReset = false →
    CarriesCommands (keyLines k) ins → s.pending = ins ++ rest →
    ∃ t, runSteps ins.length s = .next t ∧ t.pending = rest ∧ t.inReset = false ∧ t.phase = .msg ∧
      t.errCode = .none ∧ t.kp.toList = knorm k ∧ t.h = compress initialChain ((knorm k).map (· ^^^ 0x36#8)) ∧
      t.buf = Vector.replicate 64 0#8 ∧ t.bcnt = 0#7 ∧ t.len = 0#61 ∧ DigestErased t

/-! ### Message commands -/

/-- MSGB: in MSG phase it absorbs one byte below the limit, and at the limit it is a LENGTH error; its word, the words with
reserved bits, and the other phases (43_message.md R183; 60_exceptions.md R223). BCNT ≤ 64 is an invariant
(StepKeepsCountersInRange). The model's choices in it: stale bytes of BUF stay (log entry 6), and the rdata of a write
is 0 (log entry 7). -/
def Obligations.MsgbAbsorbsUpToTheLimit : Prop :=
  ∀ (b : Byte) (s : State),
    (s.phase = .msg → s.len.toNat < 2 ^ 61 - 65 → s.bcnt.toNat ≤ 64 →
      ∃ t, exec (.msgb b) s = .next t ∧ AbsorbedByte b s t) ∧
    (s.phase = .msg → s.len.toNat = 2 ^ 61 - 65 → ∃ t, exec (.msgb b) s = .next t ∧ ErrorEntered .length s t) ∧
    LegalOnlyIn .msg (.msgb b) s ∧
    (∀ w : Word, w.toNat = 0x04000000 + b.toNat → exec (.wrCmd w) s = exec (.msgb b) s) ∧
    (∀ w : Word, w.toNat / 2 ^ 24 = 4 → w.toNat / 2 ^ 8 % 2 ^ 16 ≠ 0 → ReservedOperandChecked w s)

/-- FINISH in MSG phase, from any state: the digest it forms, K' and everything else erased, STATUS, and the frame; its
word, the words with reserved bits, and the other phases (43_message.md R184). The rdata 0 of a write is the model's
choice (log entry 7). -/
def Obligations.FinishPublishesAndErases : Prop :=
  ∀ s : State,
    (s.phase = .msg →
      ∃ t, exec .finish s = .next t ∧ t.phase = .done ∧
        t.d.toList = finalize (compress initialChain (s.kp.toList.map (· ^^^ 0x5c#8)))
          (finalize s.h (tail s) (64 + s.len.toNat)) 96 ∧
        WorkingErased t ∧ t.errCode = s.errCode ∧ (s.errCode = .none → statusWord t = 0x00000003#32) ∧
        SameOutside s t ∧ t.response = okay 0#32 ∧
        ∀ c < 64, exec (.rdHex c) t =
          .next { t with response := okay (BitVec.ofNat 32 (digitCode (digestNibble t.d.toList c))) }) ∧
    LegalOnlyIn .msg .finish s ∧
    exec (.wrCmd 0x05000000#32) s = exec .finish s ∧
    (∀ w : Word, w.toNat / 2 ^ 24 = 5 → w ≠ 0x05000000#32 → ReservedOperandChecked w s)

/-- FINISH of the message m under the key k leaves D = HMAC(k, m) (43_message.md R182, R184). -/
def Obligations.FinishLeavesTheHmac : Prop :=
  ∀ (s : State) (k m : List Byte), s.phase = .msg → MsgRow k m s →
    ∃ t, exec .finish s = .next t ∧ t.phase = .done ∧ t.d.toList = hmac k m

/-- The engine's contract (00_scope.md R5; 43_message.md R185): from any state, the commands BEGIN, the key bytes, KEYEND,
the message bytes and FINISH, among any other transactions, leave D = HMAC(k, m), and STATUS and HEX read it back. -/
def Obligations.ComputationYieldsTheHmac : Prop :=
  ∀ (s : State) (k m : List Byte) (ins rest : List Input),
    k.length ≤ Config.lmaxKey → m.length ≤ Config.lmaxMsg → s.inReset = false →
    CarriesCommands (hmacLines k m) ins → s.pending = ins ++ rest →
    ∃ t, runSteps ins.length s = .next t ∧ t.pending = rest ∧ t.inReset = false ∧
      t.phase = .done ∧ t.errCode = .none ∧ t.d.toList = hmac k m ∧ WorkingErased t ∧
      exec .rdStatus t = .next { t with response := okay 0x00000003#32 } ∧
      ∀ c < 64, exec (.rdHex c) t =
        .next { t with response := okay (BitVec.ofNat 32 (digitCode (digestNibble (hmac k m) c))) }

/-! ### Register accesses -/

/-- HexChar is the ASCII code of a lowercase hex digit (44_output.md R200). -/
def Obligations.HexCharIsLowercaseAscii : Prop :=
  ∀ n : BitVec 4, (hexChar n).toNat = (if n.toNat ≤ 9 then 0x30 + n.toNat else 0x61 + (n.toNat - 10)) ∧
    (hexChar n).toNat = ("0123456789abcdef".toList.getD n.toNat ' ').toNat

/-- RD HEX[c] in every phase: the digit of D in DONE, else 0; nothing else changes (44_output.md R201, R202). -/
def Obligations.HexReadsShowTheDigit : Prop :=
  ∀ (s : State) (c : Nat), c < 64 →
    let digit := BitVec.ofNat 32 (digitCode (digestNibble s.d.toList c))
    (∀ v, decode (.bus (BitVec.ofNat 13 (0x100 + 4 * c)) v) = .ok (.rdHex c)) ∧
    digit ≠ 0#32 ∧ digit.toNat < 2 ^ 8 ∧
    (s.phase = .done → exec (.rdHex c) s = .next { s with response := okay digit }) ∧
    (s.phase ≠ .done → exec (.rdHex c) s = .next { s with response := okay 0x00000000#32 })

/-- In DONE the 64 HEX registers are hex digits, in every other phase all 64 read 0 (44_output.md R207). -/
def Obligations.HexRegistersAreWholeOrZero : Prop :=
  ∀ s : State, ∃ v : Fin 64 → Word,
    (∀ c, exec (.rdHex c.val) s = .next { s with response := okay (v c) }) ∧
    (s.phase = .done → ∀ c, isHexCode (v c).toNat ∧ (v c).toNat = digitCode (digestNibble s.d.toList c.val)) ∧
    (s.phase ≠ .done → ∀ c, v c = 0#32)

/-- RD STATUS: its layout, that it changes nothing, and its only values (44_output.md R203; 10_state.md R35). -/
def Obligations.StatusReadHasItsLayout : Prop :=
  (∀ v, decode (.bus 0x0004#13 v) = .ok .rdStatus) ∧ ∀ s : State, ∃ v : Word,
    exec .rdStatus s = .next { s with response := okay v } ∧
    v.toNat = s.errCode.code.toNat * 2 ^ 8 + s.phase.code.toNat ∧
    (ErrCodeAgrees s →
      v ∈ [0x000#32, 0x001#32, 0x002#32, 0x003#32, 0x104#32, 0x204#32, 0x304#32, 0x404#32])

/-- RD CMD returns 0 in every state and changes nothing (44_output.md R204). -/
def Obligations.CmdReadsAsZero : Prop :=
  (∀ v, decode (.bus 0x0000#13 v) = .ok .rdCmd) ∧
  ∀ s : State, exec .rdCmd s = .next { s with response := okay 0x00000000#32 }

/-- A read changes no state element, and repeating it gives the same response (20_memory.md R56). -/
def Obligations.ReadsHaveNoSideEffect : Prop :=
  ∀ (i : Instr) (s t : State), (i = .rdCmd ∨ i = .rdStatus ∨ ∃ c, i = .rdHex c) → exec i s = .next t →
    SameEngine s t ∧ SameOutside s t ∧ exec i t = .next t

/-- WR CMD, w: the response is always OKAY; a command word runs its command, any other word is a protocol error outside
ERROR and ignored in ERROR (44_output.md R205; 60_exceptions.md R224). The rdata 0 of a write is the model's choice
(log entry 7). -/
def Obligations.CmdWriteRunsItsWord : Prop :=
  ∀ (w : Word) (s : State),
    decode (.bus 0x1000#13 w) = .ok (.wrCmd w) ∧
    (∃ t, exec (.wrCmd w) s = .next t ∧ t.response = okay 0#32 ∧ SameOutside s t) ∧
    (∀ c, decodeCmd w = .ok c → exec (.wrCmd w) s = exec c.toInstr s) ∧
    (∀ e, decodeCmd w = .error e →
      (s.phase ≠ .error → ∃ t, exec (.wrCmd w) s = .next t ∧ ErrorEntered (cmdErrorCode e) s t) ∧
      (s.phase = .error → exec (.wrCmd w) s = .next { s with response := okay 0#32 }))

/-- WR STATUS and WR HEX[c] are bus errors that change nothing (44_output.md R206). -/
def Obligations.ReadOnlyWritesAreBusErrors : Prop :=
  ∀ (s : State) (w : Word),
    decode (.bus 0x1004#13 w) = .ok (.wrStatus w) ∧
    exec (.wrStatus w) s = .next { s with response := busErrorResponse } ∧
    ∀ c < 64, decode (.bus (BitVec.ofNat 13 (0x1100 + 4 * c)) w) = .ok (.wrHex c w) ∧
      exec (.wrHex c w) s = .next { s with response := busErrorResponse }

/-! ### Protocol errors -/

/-- The error a word reports outside ERROR, by its causes in the order of the checks: the codes of 60_exceptions.md R221
with the precedence of R224. -/
def Obligations.ErrorCodesHaveExactlyTheirCauses : Prop :=
  ∀ (w : Word) (s t : State), s.phase ≠ .error → s.errCode = .none → exec (.wrCmd w) s = .next t →
    (t.errCode = .illegalOpcode ↔ illegalOpcodeWord w) ∧
    (t.errCode = .reservedOperand ↔ reservedBitsWord w) ∧
    (t.errCode = .sequence ↔ outOfSequence w s) ∧
    (t.errCode = .length ↔ beyondLength w s)

/-- The phase table of 60_exceptions.md R222 for every command in every phase, away from the length limits of R223; the
row of other words; and that an ignored command changes nothing. The rdata 0 of a write is the model's choice
(log entry 7). -/
def Obligations.PhasesFollowTheTable : Prop :=
  (∀ (c : Command) (s : State),
    (∀ b, c = .keyb b → s.len.toNat ≠ Config.lmaxKey) → (∀ b, c = .msgb b → s.len.toNat ≠ Config.lmaxMsg) →
    ∃ t, exec c.toInstr s = .next t ∧
      (∀ p, phaseTable c s.phase = some p → t.phase = p) ∧
      (phaseTable c s.phase = none → ErrorEntered .sequence s t) ∧
      (s.phase = .error → c ≠ .begin_ → c ≠ .clear → SameEngine s t)) ∧
  (∀ (w : Word) (s : State) (e : CmdError), decodeCmd w = .error e →
    ∃ t, exec (.wrCmd w) s = .next t ∧ t.phase = .error ∧
      (s.phase ≠ .error → ErrorEntered (cmdErrorCode e) s t) ∧ (s.phase = .error → SameEngine s t))

/-- In ERROR only the exact BEGIN and CLEAR words have an effect (60_exceptions.md R225). The rdata 0 of an ignored write
is the model's choice (log entry 7). -/
def Obligations.ErrorPhaseIgnoresOtherWords : Prop :=
  ∀ (w : Word) (s : State), s.phase = .error →
    (w ≠ 0x01000000#32 → w ≠ 0x06000000#32 → exec (.wrCmd w) s = .next { s with response := okay 0#32 }) ∧
    (w = 0x01000000#32 → ∃ t, exec (.wrCmd w) s = .next t ∧ t.phase = .key ∧ t.errCode = .none) ∧
    (w = 0x06000000#32 → ∃ t, exec (.wrCmd w) s = .next t ∧ t.phase = .idle ∧ t.errCode = .none)

/-- Error entry: what it writes, and that it is precise: two errors of one code leave the same state, whatever the words
and the computations were (60_exceptions.md R226). -/
def Obligations.ErrorEntryIsPrecise : Prop :=
  (∀ (code : ErrCode) (s : State), let t := protocolError code s
    t.phase = .error ∧ t.errCode = code ∧ WorkingErased t ∧ DigestErased t ∧ SameOutside s t ∧
      t.response = s.response) ∧
  (∀ (w₁ w₂ : Word) (s₁ s₂ t₁ t₂ : State), s₁.phase ≠ .error → s₂.phase ≠ .error →
    exec (.wrCmd w₁) s₁ = .next t₁ → exec (.wrCmd w₂) s₂ = .next t₂ →
    t₁.phase = .error → t₂.phase = .error →
    WorkingErased t₁ ∧ DigestErased t₁ ∧ t₁.errCode ≠ .none ∧ (t₁.errCode = t₂.errCode → SameEngine t₁ t₂))

/-- BEGIN, CLEAR and reset are the only ways out of ERROR (60_exceptions.md R227). -/
def Obligations.OnlyBeginClearAndResetLeaveError : Prop :=
  ∀ s t : State, s.phase = .error → step s = .next t → t.phase ≠ .error →
    ∃ i rest, s.pending = i :: rest ∧
      ((isResetInput i = true ∧ t.phase = .idle) ∨
        ∃ x, inputTxn i = some x ∧
          ((writesCmd x 0x01000000#32 ∧ t.phase = .key) ∨ (writesCmd x 0x06000000#32 ∧ t.phase = .idle)))

/-! ### What a host cannot see, and work -/

/-- Bytes of BUF at and beyond BCNT are never read: machines that differ only there answer alike for ever
(10_state.md R31; 93_implementation_defined.md U9). The premises are invariants (StepKeepsCountersInRange). -/
def Obligations.StaleBufferBytesAreNeverSeen : Prop :=
  ∀ (s t : State) (n : Nat), SameButStaleBytes s t → CountersInRange s → ShortKeyBuffered s →
    responses n s = responses n t

/-- The hidden state is not read by any transaction but a write of CMD: what else it answers depends on PHASE, ERRCODE and
D alone (10_state.md R32). -/
def Obligations.HiddenStateIsNotReadDirectly : Prop :=
  ∀ (s₁ s₂ t₁ t₂ : State) (x : Txn) (r₁ r₂ : List Input), (x.kind = .wr → x.off ≠ 0#12) →
    s₁.pending = .txn x :: r₁ → s₂.pending = .txn x :: r₂ → s₁.inReset = s₂.inReset →
    s₁.phase = s₂.phase → s₁.errCode = s₂.errCode → s₁.d = s₂.d →
    step s₁ = .next t₁ → step s₂ = .next t₂ → t₁.response = t₂.response

/-- The table of work per command in compressions (70_reset_and_hazards.md R257). The premises are invariants: BCNT is
c(LEN) in KEY and MSG (10_state.md R31). -/
def Obligations.WorkPerCommandFollowsTheTable : Prop :=
  ∀ (s : State) (b : Byte), s.bcnt.toNat = bufferedCount s.len.toNat →
    instrWork .begin_ s = 0 ∧ instrWork .clear s = 0 ∧
    (s.phase = .key → s.len.toNat < Config.lmaxKey →
      ((∃ j, 1 ≤ j ∧ s.len.toNat + 1 = 64 * j + 1) → instrWork (.keyb b) s = 1) ∧
      ((¬∃ j, 1 ≤ j ∧ s.len.toNat + 1 = 64 * j + 1) → instrWork (.keyb b) s = 0)) ∧
    (s.phase = .key →
      (s.len.toNat ≤ 64 → instrWork .keyend s = 1) ∧
      (64 < s.len.toNat → s.bcnt.toNat ≤ 55 → instrWork .keyend s = 2) ∧
      (64 < s.len.toNat → 56 ≤ s.bcnt.toNat → instrWork .keyend s = 3)) ∧
    (s.phase = .msg → s.len.toNat < Config.lmaxMsg →
      ((∃ j, 1 ≤ j ∧ s.len.toNat + 1 = 64 * j + 1) → instrWork (.msgb b) s = 1) ∧
      ((¬∃ j, 1 ≤ j ∧ s.len.toNat + 1 = 64 * j + 1) → instrWork (.msgb b) s = 0)) ∧
    (s.phase = .msg →
      (s.bcnt.toNat ≤ 55 → instrWork .finish s = 3) ∧ (56 ≤ s.bcnt.toNat → instrWork .finish s = 4)) ∧
    (∀ i t, exec i s = .next t → s.phase ≠ .error → t.phase = .error → instrWork i s = 0) ∧
    (instrWork .rdCmd s = 0 ∧ instrWork .rdStatus s = 0 ∧ (∀ c, instrWork (.rdHex c) s = 0) ∧
      (∀ w, instrWork (.wrStatus w) s = 0) ∧ ∀ c w, instrWork (.wrHex c w) s = 0)

/-- A whole computation costs at most ⌈p/64⌉ + ⌈q/64⌉ + 5 compressions (70_reset_and_hazards.md R257). -/
def Obligations.ComputationWorkIsLinear : Prop :=
  ∀ (s : State) (k m : List Byte) (rest : List Input), k.length ≤ Config.lmaxKey → m.length ≤ Config.lmaxMsg →
    s.inReset = false → s.pending = inputsOf (hmacLines k m) ++ rest →
    runWork (hmacLines k m).length s ≤ (k.length + 63) / 64 + (m.length + 63) / 64 + 5
end

