-- ==== Sys2Proof/Laws/Decode.lean ====
section
/-! SUPPORT. Small facts of the decoder and the encoder. -/

namespace Sys2Proof

/-- The word of a byte command keeps its opcode. -/
theorem opField_enc (op : BitVec 8) (b : Byte) : opField (enc op b) = op := by
  ext i hi
  simp only [opField, enc, BitVec.getElem_extractLsb', BitVec.getLsbD_or, BitVec.getLsbD_shiftLeft,
    BitVec.getLsbD_setWidth]
  have h1 : b.getLsbD (24 + i) = false := BitVec.getLsbD_of_ge _ _ (by omega)
  have h2 : 24 + i < 32 := by omega
  simp [h1, h2, BitVec.getLsbD_eq_getElem hi]
  omega

/-- The word of a byte command keeps its byte. -/
theorem byteField_enc (op : BitVec 8) (b : Byte) : byteField (enc op b) = b := by
  ext i hi
  have h1 : i < 24 := by omega
  have h2 : i < 32 := by omega
  simp [byteField, enc, h1, h2, BitVec.getLsbD_eq_getElem hi]

/-- The reserved bits of a byte command's word are 0. -/
theorem reserved_enc (op : BitVec 8) (b : Byte) : (enc op b).extractLsb' 8 16 = 0#16 := by
  ext i hi
  have h2 : 8 + i < 24 := by omega
  simp [enc, h2]

/-- A command word is written to CMD. -/
theorem decodeTxn_cmd (w : Word) : decodeTxn (Encoding.cmd w).txn = .ok (.wrCmd w) := by
  simp [Encoding.txn, decodeTxn, Txn.sel, decodeBus]

/-- The selector of the transaction that carries a selector is that selector. -/
theorem sel_busTxn (sel : BitVec 13) (v : Word) : (Encoding.bus sel v).txn.sel = sel := by
  revert sel; simp only [Encoding.txn, Txn.sel]; decide +kernel

/-- The transaction that carries a selector decodes as the selector does. -/
theorem decodeTxn_bus (sel : BitVec 13) (v : Word) :
    decodeTxn (Encoding.bus sel v).txn = decode (.bus sel v) := by
  have h : (Encoding.bus sel v).txn.size = .word := rfl
  have hw : (Encoding.bus sel v).txn.wdata = v := rfl
  simp [decodeTxn, h, hw, sel_busTxn, decode]

end Sys2Proof
end

