-- ==== Sys2Proof/Laws/State.lean ====
section
/-! SUPPORT. One lemma per field per update of State: what each shared operation leaves and what it writes. -/

namespace Sys2Proof.Machine

open Sys2Proof

@[simp] theorem reset_phase : State.reset.phase = .idle := rfl
@[simp] theorem reset_errCode : State.reset.errCode = .none := rfl
@[simp] theorem reset_h : State.reset.h = Vector.replicate 8 0#32 := rfl
@[simp] theorem reset_buf : State.reset.buf = Vector.replicate 64 0#8 := rfl
@[simp] theorem reset_bcnt : State.reset.bcnt = 0#7 := rfl
@[simp] theorem reset_len : State.reset.len = 0#61 := rfl
@[simp] theorem reset_kp : State.reset.kp = Vector.replicate 64 0#8 := rfl
@[simp] theorem reset_d : State.reset.d = Vector.replicate 32 0#8 := rfl
@[simp] theorem reset_response : State.reset.response = none := rfl
@[simp] theorem reset_inReset : State.reset.inReset = false := rfl
@[simp] theorem reset_pending : State.reset.pending = [] := rfl
@[simp] theorem reset_freeCount : State.reset.freeCount = 0 := rfl

@[simp] theorem respond_phase (r : Resp) (v : Word) (s : State) : (respond r v s).phase = s.phase := rfl
@[simp] theorem respond_errCode (r : Resp) (v : Word) (s : State) : (respond r v s).errCode = s.errCode := rfl
@[simp] theorem respond_h (r : Resp) (v : Word) (s : State) : (respond r v s).h = s.h := rfl
@[simp] theorem respond_buf (r : Resp) (v : Word) (s : State) : (respond r v s).buf = s.buf := rfl
@[simp] theorem respond_bcnt (r : Resp) (v : Word) (s : State) : (respond r v s).bcnt = s.bcnt := rfl
@[simp] theorem respond_len (r : Resp) (v : Word) (s : State) : (respond r v s).len = s.len := rfl
@[simp] theorem respond_kp (r : Resp) (v : Word) (s : State) : (respond r v s).kp = s.kp := rfl
@[simp] theorem respond_d (r : Resp) (v : Word) (s : State) : (respond r v s).d = s.d := rfl
@[simp] theorem respond_response (r : Resp) (v : Word) (s : State) : (respond r v s).response = some ⟨r, v⟩ := rfl
@[simp] theorem respond_inReset (r : Resp) (v : Word) (s : State) : (respond r v s).inReset = s.inReset := rfl
@[simp] theorem respond_pending (r : Resp) (v : Word) (s : State) : (respond r v s).pending = s.pending := rfl
@[simp] theorem respond_freeCount (r : Resp) (v : Word) (s : State) : (respond r v s).freeCount = s.freeCount := rfl

@[simp] theorem respondOkay_phase (s : State) : (respondOkay s).phase = s.phase := rfl
@[simp] theorem respondOkay_errCode (s : State) : (respondOkay s).errCode = s.errCode := rfl
@[simp] theorem respondOkay_h (s : State) : (respondOkay s).h = s.h := rfl
@[simp] theorem respondOkay_buf (s : State) : (respondOkay s).buf = s.buf := rfl
@[simp] theorem respondOkay_bcnt (s : State) : (respondOkay s).bcnt = s.bcnt := rfl
@[simp] theorem respondOkay_len (s : State) : (respondOkay s).len = s.len := rfl
@[simp] theorem respondOkay_kp (s : State) : (respondOkay s).kp = s.kp := rfl
@[simp] theorem respondOkay_d (s : State) : (respondOkay s).d = s.d := rfl
@[simp] theorem respondOkay_response (s : State) : (respondOkay s).response = some ⟨.okay, 0#32⟩ := rfl
@[simp] theorem respondOkay_inReset (s : State) : (respondOkay s).inReset = s.inReset := rfl
@[simp] theorem respondOkay_pending (s : State) : (respondOkay s).pending = s.pending := rfl
@[simp] theorem respondOkay_freeCount (s : State) : (respondOkay s).freeCount = s.freeCount := rfl

@[simp] theorem busError_phase (s : State) : (busError s).phase = s.phase := rfl
@[simp] theorem busError_errCode (s : State) : (busError s).errCode = s.errCode := rfl
@[simp] theorem busError_h (s : State) : (busError s).h = s.h := rfl
@[simp] theorem busError_buf (s : State) : (busError s).buf = s.buf := rfl
@[simp] theorem busError_bcnt (s : State) : (busError s).bcnt = s.bcnt := rfl
@[simp] theorem busError_len (s : State) : (busError s).len = s.len := rfl
@[simp] theorem busError_kp (s : State) : (busError s).kp = s.kp := rfl
@[simp] theorem busError_d (s : State) : (busError s).d = s.d := rfl
@[simp] theorem busError_response (s : State) : (busError s).response = some ⟨.error, 0#32⟩ := rfl
@[simp] theorem busError_inReset (s : State) : (busError s).inReset = s.inReset := rfl
@[simp] theorem busError_pending (s : State) : (busError s).pending = s.pending := rfl
@[simp] theorem busError_freeCount (s : State) : (busError s).freeCount = s.freeCount := rfl

@[simp] theorem notAccepted_phase (s : State) : (notAccepted s).phase = s.phase := rfl
@[simp] theorem notAccepted_errCode (s : State) : (notAccepted s).errCode = s.errCode := rfl
@[simp] theorem notAccepted_h (s : State) : (notAccepted s).h = s.h := rfl
@[simp] theorem notAccepted_buf (s : State) : (notAccepted s).buf = s.buf := rfl
@[simp] theorem notAccepted_bcnt (s : State) : (notAccepted s).bcnt = s.bcnt := rfl
@[simp] theorem notAccepted_len (s : State) : (notAccepted s).len = s.len := rfl
@[simp] theorem notAccepted_kp (s : State) : (notAccepted s).kp = s.kp := rfl
@[simp] theorem notAccepted_d (s : State) : (notAccepted s).d = s.d := rfl
@[simp] theorem notAccepted_response (s : State) : (notAccepted s).response = none := rfl
@[simp] theorem notAccepted_inReset (s : State) : (notAccepted s).inReset = s.inReset := rfl
@[simp] theorem notAccepted_pending (s : State) : (notAccepted s).pending = s.pending := rfl
@[simp] theorem notAccepted_freeCount (s : State) : (notAccepted s).freeCount = s.freeCount := rfl

@[simp] theorem dropInput_phase (s : State) : (dropInput s).phase = s.phase := rfl
@[simp] theorem dropInput_errCode (s : State) : (dropInput s).errCode = s.errCode := rfl
@[simp] theorem dropInput_h (s : State) : (dropInput s).h = s.h := rfl
@[simp] theorem dropInput_buf (s : State) : (dropInput s).buf = s.buf := rfl
@[simp] theorem dropInput_bcnt (s : State) : (dropInput s).bcnt = s.bcnt := rfl
@[simp] theorem dropInput_len (s : State) : (dropInput s).len = s.len := rfl
@[simp] theorem dropInput_kp (s : State) : (dropInput s).kp = s.kp := rfl
@[simp] theorem dropInput_d (s : State) : (dropInput s).d = s.d := rfl
@[simp] theorem dropInput_response (s : State) : (dropInput s).response = s.response := rfl
@[simp] theorem dropInput_inReset (s : State) : (dropInput s).inReset = s.inReset := rfl
@[simp] theorem dropInput_pending (s : State) : (dropInput s).pending = s.pending.tail := rfl
@[simp] theorem dropInput_freeCount (s : State) : (dropInput s).freeCount = s.freeCount := rfl

@[simp] theorem zeroize_phase (s : State) : (zeroize s).phase = s.phase := rfl
@[simp] theorem zeroize_errCode (s : State) : (zeroize s).errCode = s.errCode := rfl
@[simp] theorem zeroize_h (s : State) : (zeroize s).h = Vector.replicate 8 0#32 := rfl
@[simp] theorem zeroize_buf (s : State) : (zeroize s).buf = Vector.replicate 64 0#8 := rfl
@[simp] theorem zeroize_bcnt (s : State) : (zeroize s).bcnt = 0#7 := rfl
@[simp] theorem zeroize_len (s : State) : (zeroize s).len = 0#61 := rfl
@[simp] theorem zeroize_kp (s : State) : (zeroize s).kp = Vector.replicate 64 0#8 := rfl
@[simp] theorem zeroize_d (s : State) : (zeroize s).d = s.d := rfl
@[simp] theorem zeroize_response (s : State) : (zeroize s).response = s.response := rfl
@[simp] theorem zeroize_inReset (s : State) : (zeroize s).inReset = s.inReset := rfl
@[simp] theorem zeroize_pending (s : State) : (zeroize s).pending = s.pending := rfl
@[simp] theorem zeroize_freeCount (s : State) : (zeroize s).freeCount = s.freeCount := rfl

@[simp] theorem clearDigest_phase (s : State) : (clearDigest s).phase = s.phase := rfl
@[simp] theorem clearDigest_errCode (s : State) : (clearDigest s).errCode = s.errCode := rfl
@[simp] theorem clearDigest_h (s : State) : (clearDigest s).h = s.h := rfl
@[simp] theorem clearDigest_buf (s : State) : (clearDigest s).buf = s.buf := rfl
@[simp] theorem clearDigest_bcnt (s : State) : (clearDigest s).bcnt = s.bcnt := rfl
@[simp] theorem clearDigest_len (s : State) : (clearDigest s).len = s.len := rfl
@[simp] theorem clearDigest_kp (s : State) : (clearDigest s).kp = s.kp := rfl
@[simp] theorem clearDigest_d (s : State) : (clearDigest s).d = Vector.replicate 32 0#8 := rfl
@[simp] theorem clearDigest_response (s : State) : (clearDigest s).response = s.response := rfl
@[simp] theorem clearDigest_inReset (s : State) : (clearDigest s).inReset = s.inReset := rfl
@[simp] theorem clearDigest_pending (s : State) : (clearDigest s).pending = s.pending := rfl
@[simp] theorem clearDigest_freeCount (s : State) : (clearDigest s).freeCount = s.freeCount := rfl

@[simp] theorem protocolError_phase (c : ErrCode) (s : State) : (protocolError c s).phase = .error := rfl
@[simp] theorem protocolError_errCode (c : ErrCode) (s : State) : (protocolError c s).errCode = c := rfl
@[simp] theorem protocolError_h (c : ErrCode) (s : State) : (protocolError c s).h = Vector.replicate 8 0#32 := rfl
@[simp] theorem protocolError_buf (c : ErrCode) (s : State) : (protocolError c s).buf = Vector.replicate 64 0#8 := rfl
@[simp] theorem protocolError_bcnt (c : ErrCode) (s : State) : (protocolError c s).bcnt = 0#7 := rfl
@[simp] theorem protocolError_len (c : ErrCode) (s : State) : (protocolError c s).len = 0#61 := rfl
@[simp] theorem protocolError_kp (c : ErrCode) (s : State) : (protocolError c s).kp = Vector.replicate 64 0#8 := rfl
@[simp] theorem protocolError_d (c : ErrCode) (s : State) : (protocolError c s).d = Vector.replicate 32 0#8 := rfl
@[simp] theorem protocolError_response (c : ErrCode) (s : State) : (protocolError c s).response = s.response := rfl
@[simp] theorem protocolError_inReset (c : ErrCode) (s : State) : (protocolError c s).inReset = s.inReset := rfl
@[simp] theorem protocolError_pending (c : ErrCode) (s : State) : (protocolError c s).pending = s.pending := rfl
@[simp] theorem protocolError_freeCount (c : ErrCode) (s : State) : (protocolError c s).freeCount = s.freeCount := rfl

@[simp] theorem openPhase_phase (p : Phase) (h : Chain) (s : State) : (openPhase p h s).phase = p := rfl
@[simp] theorem openPhase_errCode (p : Phase) (h : Chain) (s : State) : (openPhase p h s).errCode = .none := rfl
@[simp] theorem openPhase_h (p : Phase) (h : Chain) (s : State) : (openPhase p h s).h = h := rfl
@[simp] theorem openPhase_buf (p : Phase) (h : Chain) (s : State) :
    (openPhase p h s).buf = Vector.replicate 64 0#8 := rfl
@[simp] theorem openPhase_bcnt (p : Phase) (h : Chain) (s : State) : (openPhase p h s).bcnt = 0#7 := rfl
@[simp] theorem openPhase_len (p : Phase) (h : Chain) (s : State) : (openPhase p h s).len = 0#61 := rfl
@[simp] theorem openPhase_kp (p : Phase) (h : Chain) (s : State) :
    (openPhase p h s).kp = Vector.replicate 64 0#8 := rfl
@[simp] theorem openPhase_d (p : Phase) (h : Chain) (s : State) : (openPhase p h s).d = Vector.replicate 32 0#8 := rfl
@[simp] theorem openPhase_response (p : Phase) (h : Chain) (s : State) :
    (openPhase p h s).response = s.response := rfl
@[simp] theorem openPhase_inReset (p : Phase) (h : Chain) (s : State) : (openPhase p h s).inReset = s.inReset := rfl
@[simp] theorem openPhase_pending (p : Phase) (h : Chain) (s : State) : (openPhase p h s).pending = s.pending := rfl
@[simp] theorem openPhase_freeCount (p : Phase) (h : Chain) (s : State) :
    (openPhase p h s).freeCount = s.freeCount := rfl

@[simp] theorem hardReset_phase (s : State) : (hardReset s).phase = .idle := rfl
@[simp] theorem hardReset_errCode (s : State) : (hardReset s).errCode = .none := rfl
@[simp] theorem hardReset_h (s : State) : (hardReset s).h = Vector.replicate 8 0#32 := rfl
@[simp] theorem hardReset_buf (s : State) : (hardReset s).buf = Vector.replicate 64 0#8 := rfl
@[simp] theorem hardReset_bcnt (s : State) : (hardReset s).bcnt = 0#7 := rfl
@[simp] theorem hardReset_len (s : State) : (hardReset s).len = 0#61 := rfl
@[simp] theorem hardReset_kp (s : State) : (hardReset s).kp = Vector.replicate 64 0#8 := rfl
@[simp] theorem hardReset_d (s : State) : (hardReset s).d = Vector.replicate 32 0#8 := rfl
@[simp] theorem hardReset_response (s : State) : (hardReset s).response = none := rfl
@[simp] theorem hardReset_inReset (s : State) : (hardReset s).inReset = false := rfl
@[simp] theorem hardReset_pending (s : State) : (hardReset s).pending = s.pending := rfl
@[simp] theorem hardReset_freeCount (s : State) : (hardReset s).freeCount = s.freeCount := rfl

@[simp] theorem assertReset_phase (s : State) : (assertReset s).phase = .idle := rfl
@[simp] theorem assertReset_errCode (s : State) : (assertReset s).errCode = .none := rfl
@[simp] theorem assertReset_h (s : State) : (assertReset s).h = Vector.replicate 8 0#32 := rfl
@[simp] theorem assertReset_buf (s : State) : (assertReset s).buf = Vector.replicate 64 0#8 := rfl
@[simp] theorem assertReset_bcnt (s : State) : (assertReset s).bcnt = 0#7 := rfl
@[simp] theorem assertReset_len (s : State) : (assertReset s).len = 0#61 := rfl
@[simp] theorem assertReset_kp (s : State) : (assertReset s).kp = Vector.replicate 64 0#8 := rfl
@[simp] theorem assertReset_d (s : State) : (assertReset s).d = Vector.replicate 32 0#8 := rfl
@[simp] theorem assertReset_response (s : State) : (assertReset s).response = none := rfl
@[simp] theorem assertReset_inReset (s : State) : (assertReset s).inReset = true := rfl
@[simp] theorem assertReset_pending (s : State) : (assertReset s).pending = s.pending := rfl
@[simp] theorem assertReset_freeCount (s : State) : (assertReset s).freeCount = s.freeCount := rfl

@[simp] theorem cutByReset_phase (s : State) : (cutByReset s).phase = .idle := rfl
@[simp] theorem cutByReset_errCode (s : State) : (cutByReset s).errCode = .none := rfl
@[simp] theorem cutByReset_h (s : State) : (cutByReset s).h = Vector.replicate 8 0#32 := rfl
@[simp] theorem cutByReset_buf (s : State) : (cutByReset s).buf = Vector.replicate 64 0#8 := rfl
@[simp] theorem cutByReset_bcnt (s : State) : (cutByReset s).bcnt = 0#7 := rfl
@[simp] theorem cutByReset_len (s : State) : (cutByReset s).len = 0#61 := rfl
@[simp] theorem cutByReset_kp (s : State) : (cutByReset s).kp = Vector.replicate 64 0#8 := rfl
@[simp] theorem cutByReset_d (s : State) : (cutByReset s).d = Vector.replicate 32 0#8 := rfl
@[simp] theorem cutByReset_response (s : State) : (cutByReset s).response = Config.cutResponse s.freeCount := rfl
@[simp] theorem cutByReset_inReset (s : State) : (cutByReset s).inReset = true := rfl
@[simp] theorem cutByReset_pending (s : State) : (cutByReset s).pending = s.pending := rfl
@[simp] theorem cutByReset_freeCount (s : State) : (cutByReset s).freeCount = s.freeCount + 1 := rfl

@[simp] theorem appendByte_phase (b : Byte) (s : State) : (appendByte b s).phase = s.phase := rfl
@[simp] theorem appendByte_errCode (b : Byte) (s : State) : (appendByte b s).errCode = s.errCode := rfl
@[simp] theorem appendByte_h (b : Byte) (s : State) : (appendByte b s).h = s.h := rfl
@[simp] theorem appendByte_buf (b : Byte) (s : State) :
    (appendByte b s).buf = s.buf.setIfInBounds s.bcnt.toNat b := rfl
@[simp] theorem appendByte_bcnt (b : Byte) (s : State) : (appendByte b s).bcnt = s.bcnt + 1#7 := rfl
@[simp] theorem appendByte_len (b : Byte) (s : State) : (appendByte b s).len = s.len + 1#61 := rfl
@[simp] theorem appendByte_kp (b : Byte) (s : State) : (appendByte b s).kp = s.kp := rfl
@[simp] theorem appendByte_d (b : Byte) (s : State) : (appendByte b s).d = s.d := rfl
@[simp] theorem appendByte_response (b : Byte) (s : State) : (appendByte b s).response = s.response := rfl
@[simp] theorem appendByte_inReset (b : Byte) (s : State) : (appendByte b s).inReset = s.inReset := rfl
@[simp] theorem appendByte_pending (b : Byte) (s : State) : (appendByte b s).pending = s.pending := rfl
@[simp] theorem appendByte_freeCount (b : Byte) (s : State) : (appendByte b s).freeCount = s.freeCount := rfl

@[simp] theorem closeKey_phase (s : State) : (closeKey s).phase = .msg := rfl
@[simp] theorem closeKey_errCode (s : State) : (closeKey s).errCode = s.errCode := rfl
@[simp] theorem closeKey_h (s : State) :
    (closeKey s).h = compress initialChain (xorRep (keyFromState s) Config.ipad) := rfl
@[simp] theorem closeKey_buf (s : State) : (closeKey s).buf = Vector.replicate 64 0#8 := rfl
@[simp] theorem closeKey_bcnt (s : State) : (closeKey s).bcnt = 0#7 := rfl
@[simp] theorem closeKey_len (s : State) : (closeKey s).len = 0#61 := rfl
@[simp] theorem closeKey_kp (s : State) : (closeKey s).kp = fitBytes 64 (keyFromState s) := rfl
@[simp] theorem closeKey_d (s : State) : (closeKey s).d = s.d := rfl
@[simp] theorem closeKey_response (s : State) : (closeKey s).response = s.response := rfl
@[simp] theorem closeKey_inReset (s : State) : (closeKey s).inReset = s.inReset := rfl
@[simp] theorem closeKey_pending (s : State) : (closeKey s).pending = s.pending := rfl
@[simp] theorem closeKey_freeCount (s : State) : (closeKey s).freeCount = s.freeCount := rfl

@[simp] theorem publish_phase (s : State) : (publish s).phase = .done := rfl
@[simp] theorem publish_errCode (s : State) : (publish s).errCode = s.errCode := rfl
@[simp] theorem publish_h (s : State) : (publish s).h = Vector.replicate 8 0#32 := rfl
@[simp] theorem publish_buf (s : State) : (publish s).buf = Vector.replicate 64 0#8 := rfl
@[simp] theorem publish_bcnt (s : State) : (publish s).bcnt = 0#7 := rfl
@[simp] theorem publish_len (s : State) : (publish s).len = 0#61 := rfl
@[simp] theorem publish_kp (s : State) : (publish s).kp = Vector.replicate 64 0#8 := rfl
@[simp] theorem publish_d (s : State) :
    (publish s).d = fitBytes 32 (finalize (compress initialChain (xorRep s.kp.toList Config.opad)) (innerFromState s) 96) := rfl
@[simp] theorem publish_response (s : State) : (publish s).response = s.response := rfl
@[simp] theorem publish_inReset (s : State) : (publish s).inReset = s.inReset := rfl
@[simp] theorem publish_pending (s : State) : (publish s).pending = s.pending := rfl
@[simp] theorem publish_freeCount (s : State) : (publish s).freeCount = s.freeCount := rfl

@[simp] theorem compressFull_phase (s : State) : (compressFull s).phase = s.phase := by
  unfold compressFull; split <;> rfl
@[simp] theorem compressFull_errCode (s : State) : (compressFull s).errCode = s.errCode := by
  unfold compressFull; split <;> rfl
@[simp] theorem compressFull_kp (s : State) : (compressFull s).kp = s.kp := by
  unfold compressFull; split <;> rfl
@[simp] theorem compressFull_d (s : State) : (compressFull s).d = s.d := by
  unfold compressFull; split <;> rfl
@[simp] theorem compressFull_response (s : State) : (compressFull s).response = s.response := by
  unfold compressFull; split <;> rfl
@[simp] theorem compressFull_inReset (s : State) : (compressFull s).inReset = s.inReset := by
  unfold compressFull; split <;> rfl
@[simp] theorem compressFull_pending (s : State) : (compressFull s).pending = s.pending := by
  unfold compressFull; split <;> rfl
@[simp] theorem compressFull_freeCount (s : State) : (compressFull s).freeCount = s.freeCount := by
  unfold compressFull; split <;> rfl
@[simp] theorem compressFull_buf (s : State) : (compressFull s).buf = s.buf := by
  unfold compressFull; split <;> rfl
@[simp] theorem compressFull_len (s : State) : (compressFull s).len = s.len := by
  unfold compressFull; split <;> rfl

@[simp] theorem absorb_phase (b : Byte) (s : State) : (absorb b s).phase = s.phase := by
  simp [absorb]
@[simp] theorem absorb_errCode (b : Byte) (s : State) : (absorb b s).errCode = s.errCode := by
  simp [absorb]
@[simp] theorem absorb_kp (b : Byte) (s : State) : (absorb b s).kp = s.kp := by
  simp [absorb]
@[simp] theorem absorb_d (b : Byte) (s : State) : (absorb b s).d = s.d := by
  simp [absorb]
@[simp] theorem absorb_response (b : Byte) (s : State) : (absorb b s).response = s.response := by
  simp [absorb]
@[simp] theorem absorb_inReset (b : Byte) (s : State) : (absorb b s).inReset = s.inReset := by
  simp [absorb]
@[simp] theorem absorb_pending (b : Byte) (s : State) : (absorb b s).pending = s.pending := by
  simp [absorb]
@[simp] theorem absorb_freeCount (b : Byte) (s : State) : (absorb b s).freeCount = s.freeCount := by
  simp [absorb]
@[simp] theorem absorb_len (b : Byte) (s : State) : (absorb b s).len = s.len + 1#61 := by
  simp [absorb]

end Sys2Proof.Machine
end

