-- ==== Sys2Proof/Laws/Ops.lean ====
section
/-! SUPPORT. What the shared operations can do, said once: the pre-checks of a command, Absorb, the arms of exec, and the
step by the input it takes. -/

namespace Sys2Proof.Machine

open Sys2Proof

/-- In ERROR a command that is not BEGIN or CLEAR is ignored. -/
theorem commandIn_ignored {p : Phase} {f : State → State} {s : State} (h : s.phase = .error) :
    commandIn p f s = respondOkay s := by
  simp [commandIn, h]

/-- In its own phase a command has its effect. -/
theorem commandIn_legal {p : Phase} {f : State → State} {s : State} (h : s.phase = p) (hp : p ≠ .error) :
    commandIn p f s = respondOkay (f s) := by
  subst h; simp [commandIn, hp]

/-- In any other phase a command is a SEQUENCE error. -/
theorem commandIn_sequence {p : Phase} {f : State → State} {s : State} (he : s.phase ≠ .error) (h : s.phase ≠ p) :
    commandIn p f s = respondOkay (protocolError .sequence s) := by
  simp [commandIn, he, h]

/-- All that a command legal in one phase can do. -/
theorem commandIn_cases (p : Phase) (f : State → State) (s : State) :
    (s.phase = .error ∧ commandIn p f s = respondOkay s) ∨
    (s.phase ≠ .error ∧ s.phase = p ∧ commandIn p f s = respondOkay (f s)) ∨
    (s.phase ≠ .error ∧ s.phase ≠ p ∧ commandIn p f s = respondOkay (protocolError .sequence s)) := by
  by_cases he : s.phase = .error
  · exact .inl ⟨he, commandIn_ignored he⟩
  · by_cases hp : s.phase = p
    · exact .inr (.inl ⟨he, hp, commandIn_legal hp (hp ▸ he)⟩)
    · exact .inr (.inr ⟨he, hp, commandIn_sequence he hp⟩)

/-- The length check lets a byte below the limit through. -/
theorem absorbBelow_below {limit : Nat} {b : Byte} {s : State} (h : s.len.toNat ≠ limit) :
    absorbBelow limit b s = absorb b s := by
  simp [absorbBelow, h]

/-- At the limit a byte is a LENGTH error. -/
theorem absorbBelow_at {limit : Nat} {b : Byte} {s : State} (h : s.len.toNat = limit) :
    absorbBelow limit b s = protocolError .length s := by
  simp [absorbBelow, h]

/-- With a full buffer, Absorb compresses it and starts a new one. -/
theorem absorb_full {b : Byte} {s : State} (h : s.bcnt = 64#7) :
    absorb b s = { s with
      h := compress s.h s.buf.toList
      buf := s.buf.setIfInBounds 0 b
      bcnt := 1#7
      len := s.len + 1#61 } := by
  simp [absorb, compressFull, appendByte, h]

/-- With room in the buffer, Absorb appends the byte. -/
theorem absorb_room {b : Byte} {s : State} (h : s.bcnt ≠ 64#7) :
    absorb b s = { s with
      buf := s.buf.setIfInBounds s.bcnt.toNat b
      bcnt := s.bcnt + 1#7
      len := s.len + 1#61 } := by
  simp [absorb, compressFull, appendByte, h]

@[simp] theorem exec_begin (s : State) : exec .begin_ s = execBegin s := rfl
@[simp] theorem exec_keyb (b : Byte) (s : State) : exec (.keyb b) s = execKeyb b s := rfl
@[simp] theorem exec_keyend (s : State) : exec .keyend s = execKeyend s := rfl
@[simp] theorem exec_msgb (b : Byte) (s : State) : exec (.msgb b) s = execMsgb b s := rfl
@[simp] theorem exec_finish (s : State) : exec .finish s = execFinish s := rfl
@[simp] theorem exec_clear (s : State) : exec .clear s = execClear s := rfl
@[simp] theorem exec_rdCmd (s : State) : exec .rdCmd s = execRdCmd s := rfl
@[simp] theorem exec_rdStatus (s : State) : exec .rdStatus s = execRdStatus s := rfl
@[simp] theorem exec_rdHex (c : Nat) (s : State) : exec (.rdHex c) s = execRdHex c s := rfl
@[simp] theorem exec_wrCmd (w : Word) (s : State) : exec (.wrCmd w) s = execWrCmd w s := rfl
@[simp] theorem exec_wrStatus (w : Word) (s : State) : exec (.wrStatus w) s = execWrStatus w s := rfl
@[simp] theorem exec_wrHex (c : Nat) (w : Word) (s : State) : exec (.wrHex c w) s = execWrHex c w s := rfl

/-- A decoded command runs as the opcode-table row it is. -/
theorem performCommand_eq_exec (c : Command) (s : State) : performCommand c s = exec c.toInstr s := by
  cases c <;> rfl

/-- An address BASE + off is in the window, at its offset, wherever BASE is. -/
theorem windowOffset_inside (off : BitVec 12) : windowOffset (Config.base + off.toNat) = some off := by
  have h : Config.base ≤ Config.base + off.toNat ∧ Config.base + off.toNat < Config.base + Config.windowSize :=
    ⟨Nat.le_add_right _ _, Nat.add_lt_add_left (by have := off.isLt; simpa [Config.windowSize] using this) _⟩
  rw [windowOffset, if_pos h, Nat.add_sub_cancel_left, BitVec.ofNat_toNat, BitVec.setWidth_eq]

/-- An address below or above the window has no offset. -/
theorem windowOffset_outside {addr : Nat} (h : addr < Config.base ∨ Config.base + Config.windowSize ≤ addr) :
    windowOffset addr = none := by
  rw [windowOffset, if_neg]; omega

/-- With nothing pending, nothing happens. -/
theorem step_waits {s : State} (h : s.pending = []) : step s = .next s := by
  simp [step, h]

/-- With an input pending, the step is that input's. -/
theorem step_performs {s : State} {i : Input} {rest : List Input} (h : s.pending = i :: rest) :
    step s = performInput i { s with pending := rest } := by
  simp [step, dropInput, h]

/-- While reset is asserted a transaction is not accepted. -/
theorem acceptTxn_inReset {t : Txn} {s : State} (h : s.inReset = true) :
    acceptTxn t s = .next (notAccepted s) := by
  simp [acceptTxn, h]

/-- An accepted transaction that decodes runs its instruction. -/
theorem acceptTxn_decoded {t : Txn} {s : State} {i : Instr} (h : s.inReset = false) (hd : decodeTxn t = .ok i) :
    acceptTxn t s = exec i s := by
  simp [acceptTxn, h, hd]

/-- An accepted transaction that decodes to nothing is a bus error. -/
theorem acceptTxn_rejected {t : Txn} {s : State} {e : DecodeError} (h : s.inReset = false)
    (hd : decodeTxn t = .error e) : acceptTxn t s = .next (busError s) := by
  simp [acceptTxn, h, hd]

end Sys2Proof.Machine
end

