-- ==== Sys2Proof/Laws/PerInstr.lean ====
section
/-! SUPPORT. Facts of every instruction as syntax, one lemma per constructor. The family EncodeMatchesTable says that the
bits of an instruction's encoding, under the mask of its opcode-table row, are the row's match, whatever the operands. -/

namespace Sys2Proof

/-- The encoding of i has the fixed bits of its opcode-table row (30_encoding.md R74; 44_output.md R202 to R206). -/
def Laws.EncodeMatchesTable.Statement (i : Instr) : Prop :=
  i.wellFormed = true → (encode i).bits &&& i.row.mask = i.row.value

theorem Laws.EncodeMatchesTable.begin_ : Laws.EncodeMatchesTable.Statement .begin_ := fun _ => by decide

theorem Laws.EncodeMatchesTable.keyb (b : Byte) : Laws.EncodeMatchesTable.Statement (.keyb b) := fun _ => by
  revert b; decide +kernel

theorem Laws.EncodeMatchesTable.keyend : Laws.EncodeMatchesTable.Statement .keyend := fun _ => by decide

theorem Laws.EncodeMatchesTable.msgb (b : Byte) : Laws.EncodeMatchesTable.Statement (.msgb b) := fun _ => by
  revert b; decide +kernel

theorem Laws.EncodeMatchesTable.finish : Laws.EncodeMatchesTable.Statement .finish := fun _ => by decide

theorem Laws.EncodeMatchesTable.clear : Laws.EncodeMatchesTable.Statement .clear := fun _ => by decide

theorem Laws.EncodeMatchesTable.rdCmd : Laws.EncodeMatchesTable.Statement .rdCmd := fun _ => by decide

theorem Laws.EncodeMatchesTable.rdStatus : Laws.EncodeMatchesTable.Statement .rdStatus := fun _ => by decide

/-- The selector of every HEX register has the row's fixed bits. -/
theorem Laws.EncodeMatchesTable.hexSel_bits :
    ∀ c < 64, (hexSel 0#1 c).toNat &&& 0x1F03 = 0x0100 ∧ (hexSel 1#1 c).toNat &&& 0x1F03 = 0x1100 := by
  decide +kernel

theorem Laws.EncodeMatchesTable.rdHex (c : Nat) : Laws.EncodeMatchesTable.Statement (.rdHex c) := fun h =>
  (Laws.EncodeMatchesTable.hexSel_bits c (by simpa [Instr.wellFormed, hexIndexOk] using h)).1

theorem Laws.EncodeMatchesTable.wrCmd (w : Word) : Laws.EncodeMatchesTable.Statement (.wrCmd w) := fun _ => by
  simp [encode, Encoding.bits, Instr.row]

theorem Laws.EncodeMatchesTable.wrStatus (w : Word) : Laws.EncodeMatchesTable.Statement (.wrStatus w) := fun _ => by
  simp [encode, Encoding.bits, Instr.row]

theorem Laws.EncodeMatchesTable.wrHex (c : Nat) (w : Word) : Laws.EncodeMatchesTable.Statement (.wrHex c w) := fun h =>
  (Laws.EncodeMatchesTable.hexSel_bits c (by simpa [Instr.wellFormed, hexIndexOk] using h)).2

end Sys2Proof
end

