-- ==== Sys2Proof/Laws/Sha256.lean ====
section
/-! SUPPORT. Lengths of the byte strings of SHA-256 and HMAC, and the blocks of a byte string. -/

namespace Sys2Proof.Machine

open Sys2Proof

@[simp] theorem zeros_length (n : Nat) : (zeros n).length = n := by simp [zeros]

@[simp] theorem xorRep_length (s : List Byte) (b : Byte) : (xorRep s b).length = s.length := by simp [xorRep]

@[simp] theorem bytesOfWord_length (w : Word) : (bytesOfWord w).length = 4 := rfl

@[simp] theorem be64_length (v : Nat) : (be64 v).length = 8 := rfl

@[simp] theorem bytesOfChain_length (h : Chain) : (bytesOfChain h).length = 32 := by
  simp [bytesOfChain, List.length_flatMap]

@[simp] theorem finalize_length (h : Chain) (t : List Byte) (n : Nat) : (finalize h t n).length = 32 := by
  simp [finalize]

@[simp] theorem sha256_length (s : List Byte) : (sha256 s).length = 32 := by simp [sha256]

@[simp] theorem knorm_length (k : List Byte) : (knorm k).length = 64 := by
  unfold knorm; split
  · simp
  · simp; omega

@[simp] theorem innerPad_length (k : List Byte) : (innerPad k).length = 64 := by simp [innerPad]

@[simp] theorem outerPad_length (k : List Byte) : (outerPad k).length = 64 := by simp [outerPad]

@[simp] theorem hmac_length (k m : List Byte) : (hmac k m).length = 32 := by simp [hmac]

@[simp] theorem extendSchedule_length (n : Nat) (ws : List Word) :
    (extendSchedule n ws).length = ws.length + n := by
  induction n generalizing ws with
  | zero => rfl
  | succ n ih => simp [extendSchedule, ih]; omega

@[simp] theorem takeBlocks_length (n : Nat) (s : List Byte) : (takeBlocks n s).length = n := by
  induction n generalizing s with
  | zero => rfl
  | succ n ih => simp [takeBlocks, ih]

@[simp] theorem blocks_length (s : List Byte) : (blocks s).length = s.length / 64 := by simp [blocks]

/-- The length of the padding formatter's output. -/
theorem pad_length (t : List Byte) (n : Nat) : (pad t n).length = t.length + 9 + padZeros t.length := by
  simp [pad]; omega

/-- An array takes a byte string of its own length whole. -/
theorem fitBytes_toList {n : Nat} {s : List Byte} (h : s.length = n) : (fitBytes n s).toList = s := by
  subst h; simp [fitBytes, Vector.toList]

end Sys2Proof.Machine
end

