-- ==== Sys2Proof/Tests/Slice0.lean ====
section
/-! SUPPORT. Tests: expected values are those of 95_test_vectors.md or are written out from the encodings of the spec; then,
for every statement with hypotheses, a witness that meets them together. -/

namespace Sys2Proof.Tests

open Sys2Proof Sys2Proof.Machine

/-! ### Well-formedness: the one check, with a term it refuses -/

theorem test_wellFormed_refuses_rdHex_64 : (Instr.rdHex 64).wellFormed = false := by decide
theorem test_wellFormed_refuses_wrHex_64 : (Instr.wrHex 64 0#32).wellFormed = false := by decide
theorem test_wellFormed_accepts_hex_63 :
    (Instr.rdHex 63).wellFormed = true ∧ (Instr.wrHex 63 0#32).wellFormed = true := by decide

/-! ### Decoding: words written out from 30_encoding.md R72, R74 and R71 -/

theorem test_decode_begin : decode (.cmd 0b00000001_0000000000000000_00000000#32) = .ok .begin_ := by decide
theorem test_decode_keyb : decode (.cmd 0b00000010_0000000000000000_11111110#32) = .ok (.keyb 0xfe#8) := by decide
theorem test_decode_keyend : decode (.cmd 0b00000011_0000000000000000_00000000#32) = .ok .keyend := by decide
theorem test_decode_msgb : decode (.cmd 0b00000100_0000000000000000_01001000#32) = .ok (.msgb 0x48#8) := by decide
theorem test_decode_finish : decode (.cmd 0b00000101_0000000000000000_00000000#32) = .ok .finish := by decide
theorem test_decode_clear : decode (.cmd 0b00000110_0000000000000000_00000000#32) = .ok .clear := by decide
theorem test_decode_rdCmd : decode (.bus 0b0_0000_000000_00#13 0#32) = .ok .rdCmd := by decide
theorem test_decode_rdStatus : decode (.bus 0b0_0000_000001_00#13 0#32) = .ok .rdStatus := by decide
theorem test_decode_rdHex : decode (.bus 0b0_0001_100101_00#13 0#32) = .ok (.rdHex 37) := by decide
theorem test_decode_wrCmd : decode (.bus 0b1_0000_000000_00#13 7#32) = .ok (.wrCmd 7#32) := by decide
theorem test_decode_wrStatus : decode (.bus 0b1_0000_000001_00#13 7#32) = .ok (.wrStatus 7#32) := by decide
theorem test_decode_wrHex : decode (.bus 0b1_0001_111111_00#13 7#32) = .ok (.wrHex 63 7#32) := by decide

/-- 30_encoding.md R76: the words 0x00000000, 0x07000000 and 0xFF000000 are illegal. -/
theorem test_decode_illegal :
    decodeCmd 0x00000000#32 = .error .illegal ∧ decodeCmd 0x07000000#32 = .error .illegal ∧
      decodeCmd 0xFF000000#32 = .error .illegal := by decide

/-- Reserved bits: V-B5, V-B11, V-K3 of 95_test_vectors.md. -/
theorem test_decode_reserved :
    decodeCmd 0x01000001#32 = .error .reservedOperand ∧ decodeCmd 0x06800000#32 = .error .reservedOperand ∧
      decodeCmd 0x02000100#32 = .error .reservedOperand ∧ decodeCmd 0x03000010#32 = .error .reservedOperand := by
  decide

/-- The edges of the window's map (20_memory.md R52, R53; V-H3). -/
theorem test_decode_offset_edges :
    decodeTxn ⟨.rd, 0x008#12, .word, 0#32⟩ = .error .unmapped ∧
      decodeTxn ⟨.rd, 0x0FC#12, .word, 0#32⟩ = .error .unmapped ∧
      decodeTxn ⟨.rd, 0x100#12, .word, 0#32⟩ = .ok (.rdHex 0) ∧
      decodeTxn ⟨.rd, 0x1FC#12, .word, 0#32⟩ = .ok (.rdHex 63) ∧
      decodeTxn ⟨.rd, 0x200#12, .word, 0#32⟩ = .error .unmapped ∧
      decodeTxn ⟨.wr, 0xFFC#12, .word, 0#32⟩ = .error .unmapped ∧
      decodeTxn ⟨.rd, 0x102#12, .word, 0#32⟩ = .error .misaligned ∧
      decodeTxn ⟨.rd, 0x100#12, .byte, 0#32⟩ = .error .size ∧
      decodeTxn ⟨.wr, 0x000#12, .half, 0x01000000#32⟩ = .error .size := by decide

theorem test_tableWord :
    decodeTableWord 32 0x020000ab = some (.keyb 0xab#8) ∧ decodeTableWord 16 0x01fc = some (.rdHex 63) ∧
      decodeTableWord 16 0x1000 = some (.wrCmd 0#32) ∧ decodeTableWord 32 0x07000000 = none ∧
      decodeTableWord 16 0x2000 = none := by decide

/-! ### SHA-256: vectors V-C1, V-C2 and V-S4 of 95_test_vectors.md -/

theorem test_word_functions :
    bigSigma0 0x6a09e667#32 = 0xce20b47e#32 ∧ bigSigma1 0x6a09e667#32 = 0x55b65510#32 ∧
      smallSigma0 0x6a09e667#32 = 0xba0cf582#32 ∧ smallSigma1 0x6a09e667#32 = 0xcfe5da3c#32 ∧
      rotr 31 0x6a09e667#32 = 0xd413ccce#32 ∧ shr 3 0x6a09e667#32 = 0x0d413ccc#32 := by decide

theorem test_ch_maj :
    ch 0xf0f0f0f0#32 0xffffffff#32 0x00000000#32 = 0xf0f0f0f0#32 ∧
      maj 0xf0f0f0f0#32 0xff00ff00#32 0x0f0f0f0f#32 = 0xff00ff00#32 := by decide

theorem test_schedule_abc :
    let w := schedule (pad [0x61#8, 0x62#8, 0x63#8] 3)
    w.getD 17 0#32 = 0x000f0000#32 ∧ w.getD 60 0#32 = 0xa43fcf15#32 ∧ w.getD 63 0#32 = 0x12b1edeb#32 := by
  decide +kernel

theorem test_compress_abc :
    compress initialChain (pad [0x61#8, 0x62#8, 0x63#8] 3) =
      #v[0xba7816bf#32, 0x8f01cfea#32, 0x414140de#32, 0x5dae2223#32,
         0xb00361a3#32, 0x96177a9c#32, 0xb410ff61#32, 0xf20015ad#32] := by decide +kernel

theorem test_pad_edges :
    (pad (zeros 55) 55).length = 64 ∧ (pad (zeros 56) 56).length = 128 ∧ (pad (zeros 63) 63).length = 128 ∧
      (pad (zeros 56) 56).drop 120 = [0#8, 0#8, 0#8, 0#8, 0#8, 0#8, 0x01#8, 0xc0#8] := by decide +kernel

/-! ### Instructions, one step each, on small states -/

/-- The reset state in another phase. -/
def inPhase (p : Phase) : State := { State.reset with phase := p }

/-- A state in KEY phase with key bytes in its buffer, as BEGIN and KEYB leave it. -/
def keyState (k : List Byte) : State :=
  { State.reset with
    phase := .key
    h := initialChain
    buf := fitBytes 64 k
    bcnt := BitVec.ofNat 7 k.length
    len := BitVec.ofNat 61 k.length }

/-- A state in MSG phase with K' and H after KEYEND, and message bytes in its buffer. -/
def msgState (kp : List Byte) (h : Chain) (m : List Byte) : State :=
  { State.reset with
    phase := .msg
    h := h
    kp := fitBytes 64 kp
    buf := fitBytes 64 m
    bcnt := BitVec.ofNat 7 m.length
    len := BitVec.ofNat 61 m.length }

/-- ERROR phase with a code. -/
def errorState (c : ErrCode) : State := { State.reset with phase := .error, errCode := c }

/-- An engine in DONE with TC1's digest (V-L1). -/
def doneState : State :=
  { State.reset with
    phase := .done
    d := fitBytes 32 ([0xb0#8, 0x34#8, 0x4c#8, 0x61#8, 0xd8#8, 0xdb#8, 0x38#8, 0x53#8, 0x5c#8, 0xa8#8, 0xaf#8] ++
      [0xce#8, 0xaf#8, 0x0b#8, 0xf1#8, 0x2b#8, 0x88#8, 0x1d#8, 0xc2#8, 0x00#8, 0xc9#8, 0x83#8, 0x3d#8] ++
      [0xa7#8, 0x26#8, 0xe9#8, 0x37#8, 0x6c#8, 0x2e#8, 0x32#8, 0xcf#8, 0xf7#8]) }

/-- H after KEYEND of TC1's key (V-K1). -/
def chainTc1 : Chain :=
  #v[0x2bb21804#32, 0x23b95bf9#32, 0xb4e8258c#32, 0xfab5e654#32,
     0x11f2921e#32, 0x4feb78ee#32, 0x9890e5fe#32, 0x64b78036#32]

/-- TC1's key (V-L1). -/
def keyTc1 : List Byte := List.replicate 20 0x0b#8

/-- "Hi There" (V-L1). -/
def messageTc1 : List Byte := [0x48#8, 0x69#8, 0x20#8, 0x54#8, 0x68#8, 0x65#8, 0x72#8, 0x65#8]

/-- A field of the next state. -/
def after {α : Type} (f : State → α) (d : α) : Host.Outcome State Fault Refusal → α
  | .next t => f t
  | .fault _ => d
  | .refused _ => d

/-- STATUS after, or a value it never has. -/
def statusAfter (o : Host.Outcome State Fault Refusal) : Word := after statusWord 0xFFFFFFFF#32 o

/-- V-B1. -/
theorem test_begin : after State.h (Vector.replicate 8 0#32) (exec .begin_ doneState) = initialChain ∧
    after (fun t => t.d) doneState.d (exec .begin_ doneState) = Vector.replicate 32 0#8 ∧
    statusAfter (exec .begin_ (errorState .sequence)) = 0x00000001#32 := by decide +kernel

/-- V-B9, V-B10. -/
theorem test_clear : after (fun t => t) doneState (exec .clear doneState) =
      { State.reset with response := okay 0#32 } ∧
    statusAfter (exec .clear (errorState .illegalOpcode)) = 0x00000000#32 := by decide +kernel

/-- V-K2, last row. -/
theorem test_keyb_first : after (fun t => (t.bcnt, t.buf[0], t.len)) (0#7, 0#8, 0#61) (exec (.keyb 0x0b#8) (keyState [])) =
    (1#7, 0x0b#8, 1#61) := by decide +kernel

/-- V-S5: the 65th of 0x00..0x40. -/
theorem test_keyb_65th :
    after (fun t => (t.h, t.bcnt, t.buf[0])) (initialChain, 0#7, 0#8)
      (exec (.keyb 0x40#8) (keyState ((List.range 64).map (BitVec.ofNat 8)))) =
    (#v[0xfc99a2df#32, 0x88f42a7a#32, 0x7bb9d180#32, 0x33cdc6a2#32,
        0x0256755f#32, 0x9d5b9a50#32, 0x44a9cc31#32, 0x5abe84a7#32], 1#7, 0x40#8) := by decide +kernel

/-- V-K1, TC1's key. -/
theorem test_keyend_short :
    after (fun t => (t.kp.toList, t.h, t.len)) ([], initialChain, 1#61) (exec .keyend (keyState keyTc1)) =
      (keyTc1 ++ zeros 44, chainTc1, 0#61) := by decide +kernel

/-- V-K1, the key 0x00..0x40 (65 bytes, hashed): its H. -/
theorem test_keyend_long :
    after State.h initialChain (exec .keyend { keyState [0x40#8] with
      len := 65#61
      h := #v[0xfc99a2df#32, 0x88f42a7a#32, 0x7bb9d180#32, 0x33cdc6a2#32,
              0x0256755f#32, 0x9d5b9a50#32, 0x44a9cc31#32, 0x5abe84a7#32] }) =
    #v[0xc3e06c4e#32, 0xe3261043#32, 0x264f310c#32, 0x73fb7918#32,
       0xffa75b5d#32, 0x69b9f841#32, 0x1404e566#32, 0x3b22ec8f#32] := by decide +kernel

/-- V-M4. -/
theorem test_msgb_first : after (fun t => (t.bcnt, t.buf[0], t.len)) (0#7, 0#8, 0#61)
    (exec (.msgb 0x48#8) (msgState [] chainTc1 [])) = (1#7, 0x48#8, 1#61) := by decide +kernel

/-- V-M6: at and just below the limit. -/
theorem test_msgb_limit :
    statusAfter (exec (.msgb 0x61#8) { inPhase .msg with len := BitVec.ofNat 61 (2 ^ 61 - 65) }) = 0x00000404#32 ∧
    statusAfter (exec (.msgb 0x61#8) { inPhase .msg with len := BitVec.ofNat 61 (2 ^ 61 - 66) }) = 0x00000002#32 := by
  decide +kernel

/-- V-M2: TC1's digest. -/
theorem test_finish_tc1 :
    after (fun t => t.d) (Vector.replicate 32 0#8) (exec .finish (msgState (keyTc1 ++ zeros 44) chainTc1 messageTc1)) =
      doneState.d := by decide +kernel

/-- V-M6: a second FINISH. -/
theorem test_finish_twice : statusAfter (exec .finish doneState) = 0x00000304#32 := by decide +kernel

/-- V-H3: reads in DONE after TC1. -/
theorem test_reads_done :
    after State.response none (exec .rdCmd doneState) = okay 0#32 ∧
      after State.response none (exec .rdStatus doneState) = okay 3#32 ∧
      after State.response none (exec (.rdHex 0) doneState) = okay 0x62#32 ∧
      after State.response none (exec (.rdHex 1) doneState) = okay 0x30#32 ∧
      after State.response none (exec (.rdHex 63) doneState) = okay 0x37#32 := by decide +kernel

/-- V-H3: reads in MSG and in ERROR. -/
theorem test_reads_elsewhere :
    after State.response none (exec (.rdHex 0) (inPhase .msg)) = okay 0#32 ∧
      after State.response none (exec .rdStatus (errorState .sequence)) = okay 0x304#32 := by decide +kernel

/-- V-E4, V-E6, V-E12: reserved bits before phase and length. -/
theorem test_wrCmd_precedence :
    statusAfter (exec (.wrCmd 0x02000100#32) State.reset) = 0x00000204#32 ∧
      statusAfter (exec (.wrCmd 0x06800000#32) State.reset) = 0x00000204#32 ∧
      statusAfter (exec (.wrCmd 0x02000100#32) { inPhase .key with len := BitVec.ofNat 61 (2 ^ 61 - 1) }) =
        0x00000204#32 := by decide +kernel

/-- V-E3, V-E8, V-B6: an illegal word in DONE; words ignored in ERROR. -/
theorem test_wrCmd_error_filter :
    statusAfter (exec (.wrCmd 0xFF000000#32) doneState) = 0x00000104#32 ∧
      statusAfter (exec (.wrCmd 0x0200000B#32) (errorState .illegalOpcode)) = 0x00000104#32 ∧
      statusAfter (exec (.wrCmd 0x01000001#32) (errorState .illegalOpcode)) = 0x00000104#32 := by decide +kernel

/-- V-H3: writes to read-only registers. -/
theorem test_read_only_writes :
    after State.response none (exec (.wrStatus 0#32) doneState) = busErrorResponse ∧
      after State.response none (exec (.wrHex 0 0#32) doneState) = busErrorResponse ∧
      statusAfter (exec (.wrStatus 0#32) (errorState .sequence)) = 0x00000304#32 := by decide +kernel

/-- A halfword write of BEGIN is a bus error and not performed (V-H3). -/
theorem test_step_half_write :
    after (fun t => (t.response, statusWord t)) (none, 0#32)
      (step { doneState with pending := [.txn ⟨.wr, 0x000#12, .half, 0x01000000#32⟩] }) =
    (busErrorResponse, 0x00000003#32) := by decide +kernel

/-- The first step after reset runs a placed BEGIN, and a placed KEYB is a SEQUENCE error there (V-B1, V-K3). -/
theorem test_placed_words :
    statusAfter (step (State.reset.withFetchWord 32 0x01000000)) = 0x00000001#32 ∧
      statusAfter (step (State.reset.withFetchWord 32 0x0200000B)) = 0x00000304#32 ∧
      after State.response none (step (State.reset.withFetchWord 16 0x0004)) = okay 0#32 := by decide +kernel

/-- Lines of V-H3 and P3 of 95_test_vectors.md as text, and their transactions. -/
theorem test_asm_lines :
    (AsmLine.wr 0x004#12 0#32 .word).text = "WR 0x004, 0x00000000 .w" ∧
      (AsmLine.rd 0x100#12 .byte).text = "RD 0x100 .b" ∧ (AsmLine.rdHex 63).text = "RD HEX[63]" ∧
      (AsmLine.command (.keyb 0x0b#8)).text = "KEYB 0x0b" ∧
      (AsmLine.command (.keyb 0x0b#8)).txn = ⟨.wr, 0x000#12, .word, 0x0200000B#32⟩ ∧
      (AsmLine.rdHex 63).txn = ⟨.rd, 0x1FC#12, .word, 0#32⟩ := by decide +kernel

/-- P4 of 95_test_vectors.md: the commands of KEYSTR "key" and around it. -/
theorem test_hmac_lines :
    (hmacLines [0x6b#8, 0x65#8, 0x79#8] [0x54#8]).map (fun l => l.txn.wdata) =
      [0x01000000#32, 0x0200006B#32, 0x02000065#32, 0x02000079#32, 0x03000000#32, 0x04000054#32, 0x05000000#32] ∧
    readHexLines.length = 64 := by decide +kernel

/-- The host's machine is this machine. -/
theorem test_core_step : Sys2Proof.core.step = step := rfl

/-! ### Witnesses: for each statement with hypotheses, data that meets them -/

/-- A state with one transaction pending. -/
def pendingTxn (t : Txn) : State := { State.reset with pending := [.txn t] }

theorem witness_DecodeOfEncode : (Instr.wrHex 63 5#32).wellFormed = true := by decide

theorem witness_DecodedBits :
    decode (.cmd 0x020000ff#32) = .ok (.keyb 0xff#8) ∧ decode (.bus 0x01fc#13 9#32) = .ok (.rdHex 63) ∧
      decode (.bus 0x11fc#13 9#32) = .ok (.wrHex 63 9#32) ∧ (0x11fc#13).getLsbD 12 = true := by decide

theorem witness_StepRunsTheDecodedTransaction :
    (pendingTxn ⟨.rd, 0x004#12, .word, 0#32⟩).pending = .txn ⟨.rd, 0x004#12, .word, 0#32⟩ :: [] ∧
      (pendingTxn ⟨.rd, 0x004#12, .word, 0#32⟩).inReset = false ∧
      decodeTxn ⟨.rd, 0x004#12, .word, 0#32⟩ = .ok .rdStatus ∧
      decodeTxn ⟨.rd, 0x200#12, .word, 0#32⟩ = .error .unmapped := by decide

theorem witness_PlacedTableWord : decodeTableWord 32 0x03000000 = some .keyend := by decide

/-- The four clauses of AcceptedOffsetsFollowTheTable at their edges: 0, 4, 0x100, 0x1FC; 0x008, 0x0FC and 0x200 between. -/
theorem witness_AcceptedOffsets :
    (0x1FC#12).toNat = 0x100 + 4 * 63 ∧ (0x100#12).toNat = 0x100 + 4 * 0 ∧ (0x1FC#12).toNat % 4 = 0 ∧
      (∀ c < 64, (0x0FC#12).toNat ≠ 0x100 + 4 * c) ∧ (∀ c < 64, (0x200#12).toNat ≠ 0x100 + 4 * c) ∧
      (0x008#12).toNat ≠ 0 ∧ (0x008#12).toNat ≠ 4 := by decide

theorem witness_outside_window :
    Config.base + 4096 ≤ (⟨.rd, Config.base + 4096, .word, 0#32⟩ : HostAccess).addr := Nat.le_refl _

/-- Each clause of RaisesBusError. -/
theorem witness_BusErrors :
    RaisesBusError ⟨.rd, 0x100#12, .byte, 0#32⟩ ∧ RaisesBusError ⟨.wr, 0x002#12, .word, 0#32⟩ ∧
      RaisesBusError ⟨.rd, 0x0FC#12, .word, 0#32⟩ ∧ RaisesBusError ⟨.rd, 0x200#12, .word, 0#32⟩ := by decide +kernel

/-- The last clause of RaisesBusError, and transactions that raise no bus error. -/
theorem witness_no_BusErrors :
    RaisesBusError ⟨.wr, 0x004#12, .word, 0#32⟩ ∧ ¬RaisesBusError ⟨.rd, 0x1FC#12, .word, 0#32⟩ ∧
      ¬RaisesBusError ⟨.wr, 0x000#12, .word, 0#32⟩ := by decide +kernel

theorem witness_OnlyCmdWritesChange :
    ∃ t, step (pendingTxn ⟨.wr, 0x000#12, .word, 0x01000000#32⟩) = .next t ∧
      ¬SameEngine (pendingTxn ⟨.wr, 0x000#12, .word, 0x01000000#32⟩) t :=
  ⟨_, rfl, fun h => nomatch (h.1 : Phase.key = Phase.idle)⟩

theorem witness_exec_next : exec .rdCmd doneState = .next (respond .okay 0#32 doneState) := rfl

theorem witness_ResetFromAnyState :
    ({ doneState with pending := [.resetAssert, .txn ⟨.rd, 0x004#12, .word, 0#32⟩, .resetRelease] }).pending =
      [.resetAssert] ++ [(⟨.rd, 0x004#12, .word, 0#32⟩ : Txn)].map .txn ++ [.resetRelease] ++ [] ∧
      ({ pendingTxn ⟨.rd, 0x004#12, .word, 0#32⟩ with inReset := true }).inReset = true ∧
      ({ pendingTxn ⟨.rd, 0x004#12, .word, 0#32⟩ with inReset := true }).pending =
        .txn ⟨.rd, 0x004#12, .word, 0#32⟩ :: [] := by decide

theorem witness_ResetInside :
    ({ doneState with pending := [.resetCut ⟨.rd, 0x004#12, .word, 0#32⟩, .resetRelease] }).pending =
      .resetCut ⟨.rd, 0x004#12, .word, 0#32⟩ :: .resetRelease :: [] := by decide

/-- The invariants hold in KEY, with a state that has absorbed a byte, and the step answers a next state. -/
theorem witness_keyRow : KeyRow [0x0b#8] (keyState [0x0b#8]) :=
  ⟨by decide, ⟨by decide +kernel, by decide +kernel, by decide +kernel, by decide +kernel⟩, by decide +kernel⟩

theorem witness_phaseInv_key : PhaseInv (keyState [0x0b#8]) := ⟨rfl, ⟨_, witness_keyRow⟩, rfl⟩

theorem witness_step_next : step (keyState [0x0b#8]) = .next (keyState [0x0b#8]) := rfl

theorem witness_counters_key :
    CountersInRange (keyState [0x0b#8]) ∧ ShortKeyBuffered (keyState [0x0b#8]) ∧ ErrCodeAgrees (keyState [0x0b#8]) ∧
      ErasedOutsideComputation (keyState [0x0b#8]) :=
  ⟨by unfold CountersInRange; decide +kernel, by intro _ _; decide +kernel, by decide,
    fun h => absurd rfl h, fun _ => rfl, fun _ => rfl⟩

theorem witness_streaming_length : ([0x61#8, 0x62#8, 0x63#8] : List Byte).length < 2 ^ 61 := by decide

theorem witness_block_length : (zeros 64).length = 64 := by decide

theorem witness_padding : (zeros 63).length ≤ 63 ∧ 63 < 2 ^ 61 ∧ (zeros 55).length ≤ 55 ∧ ¬(zeros 56).length ≤ 55 := by
  decide

theorem witness_long_key : 64 < (zeros 65).length ∧ (zeros 64).length ≤ 64 ∧ (zeros 60).length + 4 ≤ 64 := by decide

theorem witness_begin_reserved :
    (0x01000001#32).toNat / 2 ^ 24 = 1 ∧ 0x01000001#32 ≠ 0x01000000#32 ∧ (0x06800000#32).toNat / 2 ^ 24 = 6 ∧
      0x06800000#32 ≠ 0x06000000#32 ∧ doneState.phase ≠ .error ∧ (errorState .length).phase = .error := by decide

theorem witness_BeginForgets :
    ({ doneState with pending := inputsOf [.command .begin_] }).pending =
      ({ State.reset with pending := inputsOf [.command .begin_] }).pending ∧ doneState.inReset = false ∧
      doneState.freeCount = State.reset.freeCount := by decide

/-- KEYB and MSGB with a full buffer and with room. -/
theorem witness_absorb :
    (keyState (zeros 64)).phase = .key ∧ (keyState (zeros 64)).len.toNat < Config.lmaxKey ∧
      (keyState (zeros 64)).bcnt.toNat = 64 ∧ (keyState []).bcnt.toNat < 64 ∧
      (msgState [] chainTc1 messageTc1).phase = .msg ∧
      (msgState [] chainTc1 messageTc1).len.toNat < Config.lmaxMsg ∧
      (msgState [] chainTc1 messageTc1).bcnt.toNat ≤ 64 := by decide +kernel

/-- KEYEND: a key of 64 bytes takes the first branch, one of 65 the second. -/
theorem witness_keyend :
    (keyState (zeros 64)).len.toNat ≤ 64 ∧ 64 < ({ keyState [0x40#8] with len := 65#61 }).len.toNat ∧
      ({ keyState [0x40#8] with len := 65#61 }).phase = .key := by decide +kernel

/-- The MSG row: the empty key and the empty message. -/
theorem witness_msgRow : MsgRow [] [] (msgState (knorm []) (compress initialChain (innerPad [])) []) :=
  ⟨by decide, by decide, ⟨rfl, by decide +kernel, by decide +kernel, by decide +kernel⟩,
    fitBytes_toList (by simp)⟩

/-- The commands of a computation among a read of STATUS and a bus error. -/
theorem witness_run_inputs :
    CarriesCommands (hmacLines [0x0b#8] [0x48#8])
      (inputsOf (hmacLines [0x0b#8] [0x48#8] ++ [.rdStatus, .wr 0x004#12 0#32 .word])) ∧
    CarriesCommands (keyLines [0x0b#8]) (inputsOf (.rdStatus :: keyLines [0x0b#8])) ∧
    doneState.inReset = false ∧
    ({ doneState with pending := inputsOf (hmacLines [0x0b#8] [0x48#8]) }).pending =
      inputsOf (hmacLines [0x0b#8] [0x48#8]) ++ [] ∧
    ([0x0b#8] : List Byte).length ≤ Config.lmaxKey ∧ ([0x48#8] : List Byte).length ≤ Config.lmaxMsg := by
  unfold CarriesCommands; decide

theorem witness_hex_index : 63 < 64 ∧ doneState.phase = .done ∧ (inPhase .msg).phase ≠ .done := by decide

/-- Words for the error codes that a word alone causes. -/
theorem witness_word_error_causes :
    illegalOpcodeWord 0x07000000#32 ∧ illegalOpcodeWord 0x00000001#32 ∧ reservedBitsWord 0x02000100#32 ∧
      reservedBitsWord 0x05000001#32 ∧ (keyState []).errCode = .none ∧ (keyState []).phase ≠ .error := by decide +kernel

/-- A word out of sequence, in a state without an error. -/
theorem witness_sequence_cause : outOfSequence 0x04000061#32 (keyState []) := by decide +kernel

/-- A word at each length limit, and one below. -/
theorem witness_length_causes :
    beyondLength 0x02000000#32 { inPhase .key with len := BitVec.ofNat 61 (2 ^ 61 - 1) } ∧
      beyondLength 0x04000061#32 { inPhase .msg with len := BitVec.ofNat 61 (2 ^ 61 - 65) } ∧
      ¬beyondLength 0x04000061#32 { inPhase .msg with len := BitVec.ofNat 61 (2 ^ 61 - 66) } := by decide +kernel

theorem witness_phase_table :
    (∀ b, Command.keyend = .keyb b → (keyState []).len.toNat ≠ Config.lmaxKey) ∧
      (∀ b, Command.keyend = .msgb b → (keyState []).len.toNat ≠ Config.lmaxMsg) ∧
      phaseTable .keyend .key = some .msg ∧ phaseTable .keyend .done = none ∧
      phaseTable .keyend .error = some .error ∧ decodeCmd 0x07000000#32 = .error .illegal :=
  ⟨nofun, nofun, rfl, rfl, rfl, by decide⟩

theorem witness_length_limit :
    ({ inPhase .key with len := BitVec.ofNat 61 (2 ^ 61 - 1) }).len.toNat = 2 ^ 61 - 1 ∧
      ({ inPhase .msg with len := BitVec.ofNat 61 (2 ^ 61 - 65) }).len.toNat = 2 ^ 61 - 65 ∧
      ({ inPhase .msg with len := BitVec.ofNat 61 (2 ^ 61 - 66) }).len.toNat < 2 ^ 61 - 65 ∧
      ({ inPhase .key with len := BitVec.ofNat 61 (2 ^ 61 - 2) }).len.toNat ≠ 2 ^ 61 - 1 := by decide +kernel

/-- Two errors of one code from different words and states. -/
theorem witness_ErrorEntryIsPrecise :
    exec (.wrCmd 0x05000000#32) doneState = .next (respondOkay (protocolError .sequence doneState)) ∧
      exec (.wrCmd 0x04000061#32) (keyState keyTc1) = .next (respondOkay (protocolError .sequence (keyState keyTc1))) ∧
      doneState.phase ≠ .error ∧ (keyState keyTc1).phase ≠ .error := ⟨rfl, rfl, by decide, by decide⟩

/-- A BEGIN leaves ERROR. -/
theorem witness_leave_error :
    ({ errorState .length with pending := [.txn ⟨.wr, 0x000#12, .word, 0x01000000#32⟩] }).phase = .error ∧
      statusAfter (step { errorState .length with pending := [.txn ⟨.wr, 0x000#12, .word, 0x01000000#32⟩] }) = 1#32 := by
  decide +kernel

/-- Two states that differ in a stale byte. -/
theorem witness_stale :
    SameButStaleBytes (keyState [0x0b#8]) { keyState [0x0b#8] with buf := fitBytes 64 [0x0b#8, 0xff#8] } ∧
      (keyState [0x0b#8]).buf ≠ fitBytes 64 [0x0b#8, 0xff#8] :=
  ⟨⟨rfl, rfl, rfl, by decide +kernel, rfl, rfl, rfl, rfl, rfl, rfl, rfl, rfl⟩, by decide +kernel⟩

/-- Two states that differ in the hidden state and read STATUS. -/
theorem witness_hidden :
    let x : Txn := ⟨.rd, 0x004#12, .word, 0#32⟩
    let s₁ := { keyState [0x0b#8] with pending := [.txn x] }
    let s₂ := { inPhase .key with pending := [.txn x] }
    (x.kind = .wr → x.off ≠ 0#12) ∧ s₁.inReset = s₂.inReset ∧ s₁.phase = s₂.phase ∧ s₁.errCode = s₂.errCode ∧
      s₁.d = s₂.d ∧ s₁.h ≠ s₂.h ∧ (∃ t₁, step s₁ = .next t₁) ∧ ∃ t₂, step s₂ = .next t₂ :=
  ⟨by decide, rfl, rfl, rfl, rfl, by decide +kernel, ⟨_, rfl⟩, ⟨_, rfl⟩⟩

/-- BCNT = c(LEN) with an empty, a partial and a full buffer, in KEY and MSG; LEN = 65 with BCNT = 1 and
LEN = 120 with BCNT = 56. -/
theorem witness_work :
    (keyState []).bcnt.toNat = bufferedCount (keyState []).len.toNat ∧
      (keyState (zeros 64)).bcnt.toNat = bufferedCount (keyState (zeros 64)).len.toNat ∧
      (msgState [] chainTc1 (zeros 56)).bcnt.toNat = bufferedCount (msgState [] chainTc1 (zeros 56)).len.toNat ∧
      (msgState [] chainTc1 (zeros 55)).bcnt.toNat = bufferedCount (msgState [] chainTc1 (zeros 55)).len.toNat ∧
      ({ keyState [0x40#8] with len := 65#61 }).bcnt.toNat = bufferedCount 65 ∧
      ({ keyState (zeros 56) with len := 120#61 }).bcnt.toNat = bufferedCount 120 := by decide +kernel

theorem witness_work_clauses :
    (∃ j, 1 ≤ j ∧ (keyState (zeros 64)).len.toNat + 1 = 64 * j + 1) ∧
      ¬(∃ j, 1 ≤ j ∧ (keyState []).len.toNat + 1 = 64 * j + 1) :=
  ⟨⟨1, by decide +kernel⟩, fun ⟨j, hj, h⟩ => by simp [keyState] at h; omega⟩

end Sys2Proof.Tests
end

/-! What the three register reads answer in every state, and the state after reset (10_state.md R35 to R37). -/

namespace Sys2Proof.Machine

open Sys2Proof

/-- A read of CMD answers OKAY with 0 and changes nothing else (44_output.md R204). -/
theorem exec_rdCmd_next (s : State) : exec .rdCmd s = .next { s with response := okay 0#32 } := rfl

/-- A read of STATUS answers OKAY with the status word and changes nothing else (44_output.md R203). -/
theorem exec_rdStatus_next (s : State) :
    exec .rdStatus s = .next { s with response := okay (statusWord s) } := rfl

/-- A read of a HEX register that exists answers OKAY with its word and changes nothing else (44_output.md R202). -/
theorem exec_rdHex_next {c : Nat} (hc : c < 64) (s : State) :
    exec (.rdHex c) s = .next { s with response := okay (hexWord s c) } := by
  have hok : hexIndexOk c = true := decide_eq_true hc
  rw [exec_rdHex, execRdHex, if_pos hok, respond, okay]

/-- Outside DONE every HEX register reads 0 (44_output.md R202). -/
theorem hexWord_of_phase_ne_done {s : State} (h : s.phase ≠ .done) (c : Nat) : hexWord s c = 0#32 :=
  if_neg h

/-- IDLE without an error code is the status word 0 (44_output.md R203). -/
theorem statusWord_of_idle {s : State} (hp : s.phase = .idle) (he : s.errCode = .none) : statusWord s = 0#32 := by
  rw [statusWord, hp, he]
  decide

theorem workingErased_reset : WorkingErased State.reset :=
  ⟨reset_h, reset_buf, reset_bcnt, reset_len, reset_kp⟩

/-- Settles O13: the elements are those of State.reset, and with PHASE = IDLE and ERRCODE = 0 the status word and every
HEX word are 0. -/
theorem resetLeavesEveryElementZero : Obligations.ResetLeavesEveryElementZero := by
  have hstatus : statusWord State.reset = 0#32 := statusWord_of_idle reset_phase reset_errCode
  have hhex (c : Nat) : hexWord State.reset c = 0#32 :=
    hexWord_of_phase_ne_done (by rw [reset_phase]; decide) c
  refine ⟨reset_phase, reset_errCode, workingErased_reset, reset_d, ?status, ?hex, exec_rdCmd_next _⟩
  case status => rw [exec_rdStatus_next, hstatus]
  case hex =>
    intro c hc
    rw [exec_rdHex_next hc, hhex]

end Sys2Proof.Machine

/-! The fields of a command word as arithmetic, and the words that DecodeCmd gives each outcome
(30_encoding.md R72 to R76). -/

namespace Sys2Proof

/-- The opcode field has the value n exactly when the word's top byte is n. -/
theorem opField_eq_iff {w : Word} {op : BitVec 8} : opField w = op ↔ w.toNat / 2 ^ 24 = op.toNat := by
  have hlt : w.toNat / 2 ^ 24 < 2 ^ 8 := by have := w.isLt; omega
  rw [← BitVec.toNat_inj, opField, BitVec.extractLsb'_toNat, Nat.shiftRight_eq_div_pow, Nat.mod_eq_of_lt hlt]

/-- The byte operand is the word's low byte. -/
theorem toNat_byteField (w : Word) : (byteField w).toNat = w.toNat % 2 ^ 8 := by
  rw [byteField, BitVec.extractLsb'_toNat, Nat.shiftRight_zero]

/-- The reserved bits of C0 are 0 exactly when the low 24 bits are. -/
theorem reservedC0_eq_zero_iff (w : Word) : w.extractLsb' 0 24 = 0#24 ↔ w.toNat % 2 ^ 24 = 0 := by
  rw [← BitVec.toNat_inj, BitVec.extractLsb'_toNat, Nat.shiftRight_zero, BitVec.toNat_zero]

/-- The reserved bits of C8 are 0 exactly when bits 23:8 are. -/
theorem reservedC8_eq_zero_iff (w : Word) : w.extractLsb' 8 16 = 0#16 ↔ w.toNat / 2 ^ 8 % 2 ^ 16 = 0 := by
  rw [← BitVec.toNat_inj, BitVec.extractLsb'_toNat, Nat.shiftRight_eq_div_pow, BitVec.toNat_zero]

/-- The value of a command's word: the opcode in the top byte and the operand in the low byte. -/
theorem toNat_enc (op : BitVec 8) (b : Byte) : (enc op b).toNat = op.toNat * 2 ^ 24 + b.toNat := by
  have hop := opField_eq_iff.mp (opField_enc op b)
  have hres := (reservedC8_eq_zero_iff _).mp (reserved_enc op b)
  have hb := toNat_byteField (enc op b)
  rw [byteField_enc] at hb
  omega

theorem eq_enc_iff_toNat {w : Word} {op : BitVec 8} {b : Byte} :
    w = enc op b ↔ w.toNat = op.toNat * 2 ^ 24 + b.toNat := by
  rw [← BitVec.toNat_inj, toNat_enc]

/-- A word is a byte command's exactly when its opcode, its reserved bits and its low byte are. -/
theorem eq_enc_iff {w : Word} {op : BitVec 8} {b : Byte} :
    w = enc op b ↔ opField w = op ∧ w.extractLsb' 8 16 = 0#16 ∧ byteField w = b := by
  rw [eq_enc_iff_toNat, opField_eq_iff, reservedC8_eq_zero_iff, ← BitVec.toNat_inj, toNat_byteField]
  omega

/-- The word of a command without operand: its reserved bits are all of bits 23:0. -/
theorem eq_enc_zero_iff {w : Word} {op : BitVec 8} :
    w = enc op 0#8 ↔ opField w = op ∧ w.extractLsb' 0 24 = 0#24 := by
  rw [eq_enc_iff_toNat, BitVec.toNat_zero, opField_eq_iff, reservedC0_eq_zero_iff]
  omega

/-! What the two sub-formats answer: the command of an encoder's word, or RESERVED_OPERAND, by the reserved bits. -/

theorem eq_encode_of_decodeC0 {c d : Command} {w : Word} {op : BitVec 8} (hop : opField w = op)
    (hc : c.encode = enc op 0#8) (h : decodeC0 c w = .ok d) : w = d.encode := by
  unfold decodeC0 at h
  split_ifs at h with hres
  cases h
  rw [hc, eq_enc_zero_iff]
  exact ⟨hop, hres⟩

theorem eq_encode_of_decodeC8 {c : Byte → Command} {d : Command} {w : Word} {op : BitVec 8} (hop : opField w = op)
    (hc : ∀ b, (c b).encode = enc op b) (h : decodeC8 c w = .ok d) : w = d.encode := by
  unfold decodeC8 at h
  split_ifs at h with hres
  cases h
  rw [hc, eq_enc_iff]
  exact ⟨hop, hres, rfl⟩

theorem decodeC0_eq_error_iff {c : Command} {e : CmdError} {w : Word} :
    decodeC0 c w = .error e ↔ .reservedOperand = e ∧ w.toNat % 2 ^ 24 ≠ 0 := by
  rw [decodeC0, ne_eq, ← reservedC0_eq_zero_iff]
  split <;> simp [*]

theorem decodeC8_eq_error_iff {c : Byte → Command} {e : CmdError} {w : Word} :
    decodeC8 c w = .error e ↔ .reservedOperand = e ∧ w.toNat / 2 ^ 8 % 2 ^ 16 ≠ 0 := by
  rw [decodeC8, ne_eq, ← reservedC8_eq_zero_iff]
  split <;> simp [*]

/-! The three outcomes of DecodeCmd. -/

/-- The encoder's word decodes to its command. -/
theorem decodeCmd_encode (c : Command) : decodeCmd c.encode = .ok c := by
  cases c with
  | keyb b | msgb b => simp [decodeCmd, decodeC8, Command.encode, opField_enc, reserved_enc, byteField_enc]
  | begin_ | keyend | finish | clear => rfl

/-- A word that decodes to a command is the encoder's word of that command. -/
theorem eq_encode_of_decodeCmd {w : Word} {c : Command} (h : decodeCmd w = .ok c) : w = c.encode := by
  unfold decodeCmd at h
  split_ifs at h with h1 h2 h3 h4 h5 h6
  · exact eq_encode_of_decodeC0 h1 rfl h
  · exact eq_encode_of_decodeC8 h2 (fun _ => rfl) h
  · exact eq_encode_of_decodeC0 h3 rfl h
  · exact eq_encode_of_decodeC8 h4 (fun _ => rfl) h
  · exact eq_encode_of_decodeC0 h5 rfl h
  · exact eq_encode_of_decodeC0 h6 rfl h

/-- DecodeCmd answers a command exactly for that command's word (30_encoding.md R74, R75). -/
theorem decodeCmd_eq_ok_iff {w : Word} {c : Command} : decodeCmd w = .ok c ↔ w = c.encode :=
  ⟨eq_encode_of_decodeCmd, fun h => h ▸ decodeCmd_encode c⟩

end Sys2Proof

namespace Sys2Proof.Machine

open Sys2Proof

/-- Both sub-formats refuse with RESERVED_OPERAND only, so Illegal is the answer of the opcode alone. -/
theorem decodeCmd_eq_illegal_iff {w : Word} : decodeCmd w = .error .illegal ↔ illegalOpcodeWord w := by
  simp only [decodeCmd, opField_eq_iff, BitVec.reduceToNat]
  split_ifs with h1 h2 h3 h4 h5 h6
  case neg => exact iff_of_true rfl (by omega)
  all_goals
    simp only [decodeC0_eq_error_iff, decodeC8_eq_error_iff, reduceCtorEq, false_and, false_iff]
    omega

/-- ReservedOperand is the answer of a legal opcode's sub-format, by the bits that it reserves. -/
theorem decodeCmd_eq_reservedOperand_iff {w : Word} :
    decodeCmd w = .error .reservedOperand ↔ reservedBitsWord w := by
  simp only [decodeCmd, opField_eq_iff, BitVec.reduceToNat, reservedBitsWord, List.mem_cons, List.not_mem_nil, or_false]
  split_ifs with h1 h2 h3 h4 h5 h6
  case neg => exact iff_of_false (by simp) (by omega)
  all_goals
    simp only [decodeC0_eq_error_iff, decodeC8_eq_error_iff, true_and]
    omega

/-- Settles O3: the two refusals by the opcode and the reserved bits, and each command by its encoder's word. -/
theorem everyCommandWordHasOneOutcome : Obligations.EveryCommandWordHasOneOutcome := by
  intro w
  exact ⟨decodeCmd_eq_illegal_iff, decodeCmd_eq_reservedOperand_iff, decodeCmd_eq_ok_iff,
    fun _ => decodeCmd_eq_ok_iff.trans eq_enc_iff_toNat, decodeCmd_eq_ok_iff,
    fun _ => decodeCmd_eq_ok_iff.trans eq_enc_iff_toNat, decodeCmd_eq_ok_iff, decodeCmd_eq_ok_iff⟩

end Sys2Proof.Machine

/-! The word functions of SHA-256, bit by bit (40_sha256_core.md R101 to R104). -/

namespace Sys2Proof.Machine

open Sys2Proof

/-- SHR_n moves bit i + n to bit i, and brings in zeros (40_sha256_core.md R101). -/
@[simp] theorem getLsbD_shr (n : Nat) (x : Word) (i : Nat) : (shr n x).getLsbD i = x.getLsbD (i + n) := by
  rw [shr, BitVec.getLsbD_ushiftRight, Nat.add_comm]

/-- ROTR_n moves bit (i + n) mod 32 to bit i: the right shift gives the bits that do not wrap and the left shift those
that do (40_sha256_core.md R101). -/
theorem getLsbD_rotr {n i : Nat} (hpos : 0 < n) (hn : n < 32) (hi : i < 32) (x : Word) :
    (rotr n x).getLsbD i = x.getLsbD ((i + n) % 32) := by
  rw [rotr, BitVec.getLsbD_or, BitVec.getLsbD_ushiftRight, BitVec.getLsbD_shiftLeft]
  obtain hlow | hwrap : i + n < 32 ∨ 32 ≤ i + n := by omega
  · have hleft : i < 32 - n := by omega
    rw [Nat.mod_eq_of_lt hlow, Nat.add_comm i n]
    simp [hleft]
  · have hright : x.getLsbD (n + i) = false := BitVec.getLsbD_of_ge x _ (by omega)
    have hleft : ¬ i < 32 - n := by omega
    have hmod : (i + n) % 32 = i - (32 - n) := by omega
    simp [hright, hleft, hmod, hi]

/-- Each bit of x chooses the bit of y or of z (40_sha256_core.md R102). -/
theorem getLsbD_ch {i : Nat} (hi : i < 32) (x y z : Word) :
    (ch x y z).getLsbD i = if x.getLsbD i then y.getLsbD i else z.getLsbD i := by
  rw [ch, BitVec.getLsbD_xor, BitVec.getLsbD_and, BitVec.getLsbD_and, BitVec.getLsbD_not, decide_eq_true hi]
  cases x.getLsbD i <;> simp

/-- Maj is the bitwise majority (40_sha256_core.md R102). -/
theorem getLsbD_maj (x y z : Word) (i : Nat) :
    (maj x y z).getLsbD i = decide (2 ≤ (x.getLsbD i).toNat + (y.getLsbD i).toNat + (z.getLsbD i).toNat) := by
  have majority : ∀ a b c : Bool, ((a && b) ^^ (a && c) ^^ (b && c)) = decide (2 ≤ a.toNat + b.toNat + c.toNat) := by
    decide
  simp only [maj, BitVec.getLsbD_xor, BitVec.getLsbD_and, majority]

/-- Settles O21: each sigma function is the xor of its rotations and shifts, whose bits the lemmas above give. -/
theorem wordFunctionsBitByBit : Obligations.WordFunctionsBitByBit := by
  intro x y z i hi
  have rot (n : Nat) (hpos : 0 < n) (hn : n < 32) := getLsbD_rotr hpos hn hi x
  refine ⟨rot, fun n => getLsbD_shr n x i, getLsbD_ch hi x y z, getLsbD_maj x y z i, ?Sigma0, ?Sigma1, ?sigma0, ?sigma1⟩
  case Sigma0 => simp [bigSigma0, rot]
  case Sigma1 => simp [bigSigma1, rot]
  case sigma0 => simp [smallSigma0, rot]
  case sigma1 => simp [smallSigma1, rot]

end Sys2Proof.Machine

/-! Words and Bytes are big-endian (40_sha256_core.md R107, R108). -/

namespace Sys2Proof.Machine

open Sys2Proof

/-- A byte shifted within a word loses no bit. -/
theorem toNat_setWidth_shiftLeft (b : Byte) {n : Nat} (hn : n ≤ 24) :
    (b.setWidth 32 <<< n).toNat = b.toNat <<< n := by
  have hlt : b.toNat <<< n < 2 ^ 32 := by
    rw [Nat.shiftLeft_eq]
    calc b.toNat * 2 ^ n
      _ ≤ b.toNat * 2 ^ 24 := Nat.mul_le_mul_left _ (Nat.pow_le_pow_right two_pos hn)
      _ < 2 ^ 32 := by have := b.isLt; omega
  rw [BitVec.toNat_shiftLeft, BitVec.toNat_setWidth_of_le (by decide), Nat.mod_eq_of_lt hlt]

/-- The four bytes fill disjoint bits of their word, so that its ors are sums (40_sha256_core.md R107). -/
theorem toNat_wordOfBytes (b0 b1 b2 b3 : Byte) :
    (wordOfBytes b0 b1 b2 b3).toNat =
      b0.toNat * 2 ^ 24 + b1.toNat * 2 ^ 16 + b2.toNat * 2 ^ 8 + b3.toNat := by
  have hword : (wordOfBytes b0 b1 b2 b3).toNat =
      b0.toNat <<< 24 ||| (b1.toNat <<< 16 ||| (b2.toNat <<< 8 ||| b3.toNat)) := by
    simp only [wordOfBytes, BitVec.toNat_or, toNat_setWidth_shiftLeft, Nat.reduceLeDiff, Nat.or_assoc,
      BitVec.toNat_setWidth_of_le]
  have h0 := b0.isLt
  have h1 := b1.isLt
  have h2 := b2.isLt
  have h3 := b3.isLt
  rw [hword, ← Nat.shiftLeft_add_eq_or_of_lt h3, Nat.shiftLeft_eq b2.toNat,
    ← Nat.shiftLeft_add_eq_or_of_lt (show b2.toNat * 2 ^ 8 + b3.toNat < 2 ^ 16 by omega), Nat.shiftLeft_eq b1.toNat,
    ← Nat.shiftLeft_add_eq_or_of_lt
      (show b1.toNat * 2 ^ 16 + (b2.toNat * 2 ^ 8 + b3.toNat) < 2 ^ 24 by omega), Nat.shiftLeft_eq]
  omega

theorem wordsOfBytes_length : ∀ bs : List Byte, (wordsOfBytes bs).length = bs.length / 4
  | [] | [_] | [_, _] | [_, _, _] => by simp [wordsOfBytes]
  | _ :: _ :: _ :: _ :: rest => by
    simp only [wordsOfBytes, List.length_cons, wordsOfBytes_length rest]
    omega

/-- Word t is that of the bytes from 4t on (40_sha256_core.md R107). -/
theorem getD_wordsOfBytes : ∀ (bs : List Byte) (t : Nat), 4 * t + 3 < bs.length →
    (wordsOfBytes bs).getD t 0#32 =
      wordOfBytes (bs.getD (4 * t) 0#8) (bs.getD (4 * t + 1) 0#8) (bs.getD (4 * t + 2) 0#8) (bs.getD (4 * t + 3) 0#8)
  | b0 :: b1 :: b2 :: b3 :: rest, 0, _ => rfl
  | b0 :: b1 :: b2 :: b3 :: rest, t + 1, h => getD_wordsOfBytes rest t (by simp at h; omega)

/-- Byte j of a word is its bits 31 - 8j to 24 - 8j (40_sha256_core.md R108). -/
theorem toNat_getD_bytesOfWord (w : Word) {j : Nat} (hj : j < 4) :
    ((bytesOfWord w).getD j 0#8).toNat = w.toNat / 2 ^ (24 - 8 * j) % 2 ^ 8 := by
  have hbyte : (bytesOfWord w).getD j 0#8 = w.extractLsb' (24 - 8 * j) 8 := by
    interval_cases j <;> rfl
  rw [hbyte, BitVec.extractLsb'_toNat, Nat.shiftRight_eq_div_pow]

/-- The bytes of word i stand from 4i on (40_sha256_core.md R108). -/
theorem getD_flatMap_bytesOfWord {j : Nat} (hj : j < 4) (ws : List Word) (i : Nat) (hi : i < ws.length) :
    (ws.flatMap bytesOfWord).getD (4 * i + j) 0#8 = (bytesOfWord ws[i]).getD j 0#8 := by
  induction ws generalizing i with
  | nil => simp at hi
  | cons w ws ih =>
    rw [List.flatMap_cons]
    cases i with
    | zero => rw [Nat.mul_zero, Nat.zero_add, List.getD_append _ _ _ _ hj, List.getElem_cons_zero]
    | succ i =>
      rw [List.getD_append_right _ _ _ _ (by simp; omega), bytesOfWord_length, List.getElem_cons_succ,
        ← ih i (by simpa using hi)]
      congr 1
      omega

/-- Settles O22: the bytes of word t of a block, and the word of byte 4i + j of a chaining value, by position. -/
theorem hashByteOrderIsBigEndian : Obligations.HashByteOrderIsBigEndian := by
  refine ⟨fun block hlen => ⟨?length, fun t ht => ?word⟩, fun h => ⟨bytesOfChain_length h, fun i j hj => ?byte⟩⟩
  case length => rw [wordsOfBytes_length, hlen]
  case word => rw [getD_wordsOfBytes block t (by omega), toNat_wordOfBytes]
  case byte =>
    rw [bytesOfChain, getD_flatMap_bytesOfWord hj _ i.val (by simp), toNat_getD_bytesOfWord _ hj,
      Vector.getElem_toList, Fin.getElem_fin]

end Sys2Proof.Machine

/-! The message schedule: each further word is the recurrence on the words before it (40_sha256_core.md R110). -/

namespace Sys2Proof.Machine

open Sys2Proof

/-- The schedule only grows at its end. -/
theorem exists_extendSchedule_eq_append (n : Nat) (ws : List Word) : ∃ more, extendSchedule n ws = ws ++ more := by
  induction n generalizing ws with
  | zero => exact ⟨[], (List.append_nil ws).symm⟩
  | succ n ih =>
    obtain ⟨more, hmore⟩ := ih (ws ++ [scheduleNext ws])
    exact ⟨scheduleNext ws :: more, by rw [extendSchedule, hmore, ← List.append_cons]⟩

/-- A word that was there stays as it is. -/
theorem getD_extendSchedule_of_lt {n t : Nat} {ws : List Word} (ht : t < ws.length) :
    (extendSchedule n ws).getD t 0#32 = ws.getD t 0#32 := by
  obtain ⟨more, hmore⟩ := exists_extendSchedule_eq_append n ws
  rw [hmore, List.getD_append _ _ _ _ ht]

/-- A further word t is the next one after the first t words. -/
theorem getD_extendSchedule_of_ge {n t : Nat} {ws : List Word} (hge : ws.length ≤ t) (hlt : t < ws.length + n) :
    (extendSchedule n ws).getD t 0#32 = scheduleNext ((extendSchedule n ws).take t) := by
  induction n generalizing ws with
  | zero => omega
  | succ n ih =>
    rw [extendSchedule]
    obtain hnow | hlater := hge.eq_or_lt
    · subst hnow
      obtain ⟨more, hmore⟩ := exists_extendSchedule_eq_append n (ws ++ [scheduleNext ws])
      rw [hmore, List.append_assoc, List.take_left, List.getD_append_right _ _ _ _ le_rfl, Nat.sub_self]
      rfl
    · exact ih (by simp; omega) (by simp; omega)

/-- The next word after the first t ≥ 16 words of a list is the recurrence on the list's own words
(40_sha256_core.md R110). -/
theorem scheduleNext_take {ws : List Word} {t : Nat} (hge : 16 ≤ t) (hlt : t < ws.length) :
    scheduleNext (ws.take t) = smallSigma1 (ws.getD (t - 2) 0#32) + ws.getD (t - 7) 0#32
      + smallSigma0 (ws.getD (t - 15) 0#32) + ws.getD (t - 16) 0#32 := by
  have hget (k : Nat) (hk : 0 < k) : (ws.take t).getD (t - k) 0#32 = ws.getD (t - k) 0#32 := by
    simp [List.getD_eq_getElem?_getD, show t - k < t by omega]
  have hlen : (ws.take t).length = t := List.length_take_of_le hlt.le
  simp only [scheduleNext, hlen, hget _ (Nat.succ_pos _)]

theorem wordsOfBytes_zeros : ∀ n : Nat, wordsOfBytes (zeros (4 * n)) = List.replicate n 0#32
  | 0 => rfl
  | n + 1 => congrArg (0#32 :: ·) (wordsOfBytes_zeros n)

/-- The recurrence keeps zeros, for σ0(0) = σ1(0) = 0 (40_sha256_core.md R110). -/
theorem scheduleNext_replicate_zero (k : Nat) : scheduleNext (List.replicate k 0#32) = 0#32 := by
  have hget (t : Nat) : (List.replicate k 0#32).getD t 0#32 = 0#32 := by
    obtain hlt | hge := Nat.lt_or_ge t k
    · exact List.getD_replicate _ hlt
    · exact List.getD_eq_default _ _ (by simpa using hge)
  simp only [scheduleNext, hget]
  decide

theorem extendSchedule_replicate_zero (n k : Nat) :
    extendSchedule n (List.replicate k 0#32) = List.replicate (k + n) 0#32 := by
  induction n generalizing k with
  | zero => rfl
  | succ n ih =>
    rw [extendSchedule, scheduleNext_replicate_zero, ← List.replicate_succ', ih]
    congr 1; omega

/-- Settles O23: the first 16 words are the block's, and each later one is scheduleNext of the words before it. -/
theorem scheduleFollowsTheRecurrence : Obligations.ScheduleFollowsTheRecurrence := by
  refine ⟨fun block hlen => ?block, ?zero⟩
  case block =>
    have hwords : (wordsOfBytes block).length = 16 := by rw [wordsOfBytes_length, hlen]
    have hschedule : (schedule block).length = 64 := by rw [schedule, extendSchedule_length, hwords]
    refine ⟨hschedule, fun t ht => getD_extendSchedule_of_lt (by omega), fun t hge hlt => ?_⟩
    have hnext : (schedule block).getD t 0#32 = scheduleNext ((schedule block).take t) :=
      getD_extendSchedule_of_ge (by omega) (by omega)
    exact hnext.trans (scheduleNext_take hge (by omega))
  case zero => rw [schedule, wordsOfBytes_zeros 16, extendSchedule_replicate_zero]

end Sys2Proof.Machine

/-! The padding formatter (40_sha256_core.md R115). -/

namespace Sys2Proof.Machine

open Sys2Proof

/-- The value of a byte string, most significant byte first: reading on from v appends a word's four bytes to it. -/
theorem foldl_bytesOfWord (v : Nat) (w : Word) :
    (bytesOfWord w).foldl (fun v b => v * 256 + b.toNat) v = v * 2 ^ 32 + w.toNat := by
  have hw := w.isLt
  simp only [bytesOfWord, List.foldl, BitVec.extractLsb'_toNat, Nat.shiftRight_eq_div_pow]
  omega

/-- be64 writes a number below 2^64 in full (40_sha256_core.md R115). -/
theorem foldl_be64 {v : Nat} (hv : v < 2 ^ 64) : (be64 v).foldl (fun v b => v * 256 + b.toNat) 0 = v := by
  rw [be64, List.foldl_append, foldl_bytesOfWord, foldl_bytesOfWord, BitVec.toNat_ofNat, BitVec.toNat_ofNat]
  omega

/-- The zeros fill up the first block after a tail of at most 55 bytes, and the second after a longer one. -/
theorem padZeros_eq {n : Nat} (hn : n ≤ 63) : padZeros n = if n ≤ 55 then 55 - n else 119 - n := by
  rw [padZeros]
  split <;> omega

/-- The bytes after the 0x80 and before the length field are 0. -/
theorem getD_pad_zeros {t : List Byte} {i : Nat} (total : Nat) {d : Byte} (hlo : t.length < i)
    (hhi : i ≤ t.length + padZeros t.length) : (pad t total).getD i d = 0#8 := by
  rw [pad, List.getD_append _ _ _ _ (by simp; omega), List.getD_append_right _ _ _ _ (by simp; omega), zeros,
    List.getD_replicate _ (by simp; omega)]

/-- Settles O24: pad is four parts in a row, each found by its position from the front or from the end. -/
theorem paddingHasItsShapeAndLength : Obligations.PaddingHasItsShapeAndLength := by
  intro t total ht htotal
  have hlength := pad_length t total
  refine ⟨?length, ?tail, ?one, ?zeros, ?bits⟩
  case length =>
    rw [hlength, padZeros_eq ht]
    split <;> omega
  case tail => rw [pad, List.append_assoc, List.append_assoc, List.take_left]
  case one => simp [pad]
  case zeros =>
    intro i hlo hhi
    exact getD_pad_zeros total hlo (by omega)
  case bits =>
    have hdrop : (pad t total).drop ((pad t total).length - 8) = be64 (8 * total) :=
      List.drop_left' (by simp; omega)
    rw [hdrop, foldl_be64 (by omega)]

end Sys2Proof.Machine

/-! Key normalization (42_key.md R160). -/

namespace Sys2Proof.Machine

open Sys2Proof

/-- A key above 64 bytes is hashed first. -/
theorem knorm_of_long {k : List Byte} (h : 64 < k.length) : knorm k = sha256 k ++ zeros 32 := if_pos h

/-- A key of at most 64 bytes is only padded. -/
theorem knorm_of_short {k : List Byte} (h : k.length ≤ 64) : knorm k = k ++ zeros (64 - k.length) :=
  if_neg (Nat.not_lt.mpr h)

theorem zeros_append_zeros (m n : Nat) : zeros m ++ zeros n = zeros (m + n) := List.replicate_append_replicate

/-- Zero bytes at the end of a short key are those the padding would add. -/
theorem knorm_append_zeros {k : List Byte} {n : Nat} (h : k.length + n ≤ 64) : knorm (k ++ zeros n) = knorm k := by
  have hlen : (k ++ zeros n).length = k.length + n := by rw [List.length_append, zeros_length]
  rw [knorm_of_short (by omega), knorm_of_short (by omega), hlen, List.append_assoc, zeros_append_zeros]
  congr 2
  omega

/-- HMAC uses the key through K' only (43_message.md R180 to R182). -/
theorem hmac_eq_of_knorm_eq {k k' : List Byte} (h : knorm k = knorm k') (m : List Byte) : hmac k m = hmac k' m := by
  rw [hmac, hmac, innerDigest, innerDigest, innerPad, innerPad, outerPad, outerPad, h]

/-- Settles O26: the two branches of knorm, and the zero bytes by them. -/
theorem normalizedKeyFollowsTheTwoSteps : Obligations.NormalizedKeyFollowsTheTwoSteps := by
  refine ⟨knorm_length, fun _ => knorm_of_long, fun _ => knorm_of_short, fun k n h => ?_⟩
  have hk : knorm (k ++ zeros n) = knorm k := knorm_append_zeros h
  exact ⟨hk, hmac_eq_of_knorm_eq hk⟩

end Sys2Proof.Machine

/-! A byte string in blocks, and the streaming state of 10_state.md R31: what Absorb makes of it
(40_sha256_core.md R117, R118). -/

namespace Sys2Proof.Machine

open Sys2Proof

/-- One block more is taken from the rest of the string. -/
theorem takeBlocks_succ (n : Nat) (s : List Byte) :
    takeBlocks (n + 1) s = takeBlocks n s ++ [(s.drop (64 * n)).take 64] := by
  induction n generalizing s with
  | zero => simp [takeBlocks]
  | succ n ih =>
    have htail : (s.drop 64).drop (64 * n) = s.drop (64 * (n + 1)) := by rw [List.drop_drop]; congr 1; omega
    rw [takeBlocks, ih, htail, takeBlocks, List.cons_append]

/-- The blocks of a string that holds them do not see what follows. -/
theorem takeBlocks_append {n : Nat} {s : List Byte} (h : 64 * n ≤ s.length) (t : List Byte) :
    takeBlocks n (s ++ t) = takeBlocks n s := by
  induction n generalizing s with
  | zero => rfl
  | succ n ih =>
    rw [takeBlocks, takeBlocks, List.take_append_of_le_length (by omega), List.drop_append_of_le_length (by omega),
      ih (by rw [List.length_drop]; omega)]

/-- The bytes up to one just stored: those before it, then that byte. -/
theorem take_succ_setIfInBounds {n i : Nat} (v : Vector Byte n) (h : i < n) (b : Byte) :
    (v.setIfInBounds i b).toList.take (i + 1) = v.toList.take i ++ [b] := by
  have hset : (v.setIfInBounds i b).toList = v.toList.set i b := by simp
  rw [hset, List.take_add_one, List.take_set_of_le (Nat.le_refl i), List.getElem?_set_self (by simpa using h),
    Option.toList_some]

/-- With a full buffer, Absorb leaves the new byte alone in it. -/
theorem tail_absorb_full {s : State} (h : s.bcnt.toNat = 64) (b : Byte) : tail (absorb b s) = [b] := by
  rw [absorb_full (BitVec.eq_of_toNat_eq h)]
  exact take_succ_setIfInBounds s.buf (by decide : 0 < 64) b

/-- With room in the buffer, Absorb appends the byte. -/
theorem tail_absorb_room {s : State} (h : s.bcnt.toNat < 64) (b : Byte) : tail (absorb b s) = tail s ++ [b] := by
  have hroom : s.bcnt ≠ 64#7 := fun hfull => by simp [hfull] at h
  have hsucc : (s.bcnt + 1#7).toNat = s.bcnt.toNat + 1 := by bv_omega
  rw [absorb_room hroom, tail, bufPrefix, hsucc]
  exact take_succ_setIfInBounds s.buf h b

/-- A full tail is the whole buffer. -/
theorem tail_of_full {s : State} (h : s.bcnt.toNat = 64) : tail s = s.buf.toList := by
  rw [tail, bufPrefix, h, List.take_of_length_le (by simp)]

/-- The count in the buffer runs from 1 to 64 and starts again at 1. -/
theorem bufferedCount_succ (n : Nat) :
    bufferedCount (n + 1) = if bufferedCount n = 64 then 1 else bufferedCount n + 1 := by
  simp only [bufferedCount]
  split_ifs <;> omega

theorem bufferedCount_le (n : Nat) : bufferedCount n ≤ 64 := by
  rw [bufferedCount]
  split <;> omega

/-- The bytes before those in the buffer are whole blocks. -/
theorem exists_length_eq_blocks_add_buffered (n : Nat) : ∃ q, n = 64 * q + bufferedCount n := by
  refine ⟨(n - 1) / 64, ?_⟩
  rw [bufferedCount]
  split <;> omega

/-- The streaming state of q whole blocks and c buffered bytes. -/
theorem streaming_iff {h0 : Chain} {x : List Byte} {s : State} {q c : Nat} (hlength : x.length = 64 * q + c)
    (hc : bufferedCount x.length = c) :
    Streaming h0 x s ↔ s.h = (takeBlocks q x).foldl compress h0 ∧ tail s = x.drop (64 * q) ∧ s.bcnt.toNat = c ∧
      s.len.toNat = x.length := by
  have hfull : x.length - c = 64 * q := by omega
  simp only [Streaming, hc, hfull, Nat.mul_div_cancel_left q (show 0 < 64 by decide)]

/-- The streaming state of no bytes. -/
theorem streaming_nil {h0 : Chain} {s : State} (hh : s.h = h0) (hbcnt : s.bcnt = 0#7) (hlen : s.len = 0#61) :
    Streaming h0 [] s := by
  refine ⟨hh, ?tail, ?bcnt, ?len⟩
  case tail => simp [tail, bufPrefix, hbcnt]
  case bcnt => rw [hbcnt]; rfl
  case len => rw [hlen]; rfl

/-- Absorb counts its byte, below the width of LEN. -/
theorem toNat_absorb_len {s : State} (h : s.len.toNat + 1 < 2 ^ 61) (b : Byte) :
    (absorb b s).len.toNat = s.len.toNat + 1 := by
  rw [absorb_len]
  bv_omega

/-- Absorb with a full buffer: the buffer becomes one more block, and the byte starts the next. -/
theorem streaming_absorb_full {h0 : Chain} {x : List Byte} {s : State} (h : Streaming h0 x s)
    (hfull : bufferedCount x.length = 64) (b : Byte) :
    Streaming h0 (x ++ [b]) (absorb b s) := by
  obtain ⟨q, hq⟩ := exists_length_eq_blocks_add_buffered x.length
  obtain ⟨hh, htail, hbcnt, hlen⟩ := (streaming_iff hq rfl).mp h
  have hlength : (x ++ [b]).length = x.length + 1 := List.length_append
  have hcount : bufferedCount (x ++ [b]).length = 1 := by rw [hlength, bufferedCount_succ, if_pos hfull]
  have hs : s.bcnt.toNat = 64 := hbcnt.trans hfull
  have habsorb := absorb_full (b := b) (BitVec.eq_of_toNat_eq hs)
  rw [streaming_iff (q := q + 1) (by omega) hcount]
  refine ⟨?chain, ?tail, ?bcnt, ?len⟩
  case chain =>
    have hblock : (x.drop (64 * q)).take 64 = s.buf.toList := by
      rw [← htail, tail_of_full hs, List.take_of_length_le (by simp)]
    rw [habsorb, takeBlocks_append (by omega), takeBlocks_succ, hblock, List.foldl_append, ← hh]
    rfl
  case tail => rw [tail_absorb_full hs, List.drop_left' (by omega)]
  case bcnt => rw [habsorb]; rfl
  case len => rw [toNat_absorb_len (by omega), hlen, hlength]

/-- Absorb with room in the buffer: the blocks stay, and the byte joins the tail. -/
theorem streaming_absorb_room {h0 : Chain} {x : List Byte} {s : State} (h : Streaming h0 x s)
    (hlt : x.length + 1 < 2 ^ 61) (hroom : bufferedCount x.length ≠ 64) (b : Byte) :
    Streaming h0 (x ++ [b]) (absorb b s) := by
  obtain ⟨q, hq⟩ := exists_length_eq_blocks_add_buffered x.length
  obtain ⟨hh, htail, hbcnt, hlen⟩ := (streaming_iff hq rfl).mp h
  have hlength : (x ++ [b]).length = x.length + 1 := List.length_append
  have hcount : bufferedCount (x ++ [b]).length = bufferedCount x.length + 1 := by
    rw [hlength, bufferedCount_succ, if_neg hroom]
  have hs : s.bcnt.toNat < 64 := hbcnt ▸ lt_of_le_of_ne (bufferedCount_le x.length) hroom
  have habsorb := absorb_room (b := b) (show s.bcnt ≠ 64#7 by bv_omega)
  rw [streaming_iff (q := q) (by omega) hcount]
  refine ⟨?chain, ?tail, ?bcnt, ?len⟩
  case chain => rw [habsorb, takeBlocks_append (by omega)]; exact hh
  case tail => rw [tail_absorb_room hs, htail, List.drop_append_of_le_length (by omega)]
  case bcnt => rw [habsorb, ← hbcnt]; bv_omega
  case len => rw [toNat_absorb_len (by omega), hlen, hlength]

/-- Absorb extends the streaming state by its byte. -/
theorem streaming_absorb {h0 : Chain} {x : List Byte} {s : State} (h : Streaming h0 x s)
    (hlt : x.length + 1 < 2 ^ 61) (b : Byte) : Streaming h0 (x ++ [b]) (absorb b s) := by
  by_cases hfull : bufferedCount x.length = 64
  · exact streaming_absorb_full h hfull b
  · exact streaming_absorb_room h hlt hfull b

/-- Absorbing a byte string extends the streaming state by it. -/
theorem streaming_foldl_absorb {h0 : Chain} {x y : List Byte} {s : State} (h : Streaming h0 x s)
    (hlt : (x ++ y).length < 2 ^ 61) : Streaming h0 (x ++ y) (y.foldl (fun s b => absorb b s) s) := by
  induction y generalizing x s with
  | nil => rwa [List.append_nil]
  | cons b y ih =>
    have hsplit : x ++ b :: y = (x ++ [b]) ++ y := List.append_cons x b y
    rw [hsplit] at hlt ⊢
    refine ih (streaming_absorb h ?_ b) hlt
    rw [List.length_append, List.length_append] at hlt
    exact Nat.lt_of_le_of_lt (Nat.le_add_right _ _) hlt

/-- Finalize of a streaming state from H0 is the hash of its string (40_sha256_core.md R118). -/
theorem finalize_of_streaming {x : List Byte} {s : State} (h : Streaming initialChain x s) :
    finalize s.h (tail s) s.len.toNat = sha256 x := by
  obtain ⟨hh, htail, -, hlen⟩ := h
  have hlt : ([] ++ x).length < 2 ^ 61 := by rw [List.nil_append, ← hlen]; exact s.len.isLt
  have hstart : Streaming initialChain [] { State.reset with h := initialChain } := streaming_nil rfl rfl rfl
  obtain ⟨hh', htail', -, -⟩ := streaming_foldl_absorb hstart hlt
  rw [List.nil_append] at hh' htail'
  rw [sha256, hh, htail, hlen, hh', htail']

/-- A short string is wholly in the buffer. -/
theorem tail_of_streaming_short {h0 : Chain} {x : List Byte} {s : State} (h : Streaming h0 x s)
    (hx : x.length ≤ 64) : tail s = x ∧ s.bcnt.toNat = x.length := by
  have hcount : bufferedCount x.length = x.length := by rw [bufferedCount]; split <;> omega
  obtain ⟨-, htail, hbcnt, -⟩ := (streaming_iff (q := 0) (by omega) hcount).mp h
  exact ⟨htail, hbcnt⟩

/-- KEYEND forms Knorm of the key absorbed (42_key.md R163). -/
theorem keyFromState_of_keyRow {k : List Byte} {s : State} (h : KeyRow k s) : keyFromState s = knorm k := by
  obtain ⟨-, hstream, -⟩ := h
  obtain ⟨-, -, -, hlen⟩ := id hstream
  by_cases hk : k.length ≤ 64
  · obtain ⟨htail, hbcnt⟩ := tail_of_streaming_short hstream hk
    rw [tail, hbcnt, ← hlen] at htail
    rw [keyFromState, if_pos (by omega), htail, hlen, knorm_of_short hk]
  · rw [keyFromState, if_neg (by omega), finalize_of_streaming hstream, knorm_of_long (by omega)]

end Sys2Proof.Machine

/-! What a transaction of the window does: one that is no write of CMD only answers, and a write of a command's word runs
that command (20_memory.md R51 to R53; 44_output.md R205). -/

namespace Sys2Proof.Machine

open Sys2Proof

/-- Bit 12 of SEL is set exactly for a write (30_encoding.md R71). -/
theorem getLsbD_sel_twelve (t : Txn) : t.sel.getLsbD 12 = true ↔ t.kind = .wr := by
  rw [Txn.sel, BitVec.getLsbD_append]
  cases t.kind <;> simp

/-- The low bits of SEL are the offset (30_encoding.md R71). -/
theorem extractLsb'_sel (t : Txn) : t.sel.extractLsb' 0 12 = t.off := by
  rw [Txn.sel, BitVec.extractLsb'_append_eq_right]

/-- What runs when a transaction is accepted: a write of CMD runs its word, and any other instruction only answers. -/
theorem decodeTxn_ok_cases {t : Txn} {i : Instr} (h : decodeTxn t = .ok i) :
    (∃ w, t = ⟨.wr, 0x000#12, .word, w⟩ ∧ i = .wrCmd w) ∨ ∀ s, ∃ r v, exec i s = .next (respond r v s) := by
  simp only [decodeTxn, decodeBus, getLsbD_sel_twelve, extractLsb'_sel] at h
  split_ifs at h with hsize halign hhex hwr hcmd hwr hstatus hwr
  · cases h
    exact .inr fun s => ⟨.error, 0#32, rfl⟩
  · cases h
    refine .inr fun s => ?_
    rw [exec_rdHex, execRdHex]
    split
    · exact ⟨_, _, rfl⟩
    · exact ⟨_, _, rfl⟩
  · cases h
    obtain ⟨kind, off, size, w⟩ := t
    obtain rfl : kind = .wr := hwr
    obtain rfl : off = 0x000#12 := hcmd
    obtain rfl : size = .word := not_not.mp hsize
    exact .inl ⟨w, rfl, rfl⟩
  · cases h
    exact .inr fun s => ⟨.okay, 0#32, rfl⟩
  · cases h
    exact .inr fun s => ⟨.error, 0#32, rfl⟩
  · cases h
    exact .inr fun s => ⟨.okay, statusWord s, rfl⟩

/-- A transaction of the window reaches the engine in the same way as the input that brings it. -/
theorem performInput_of_inputTxn {i : Input} {t : Txn} (h : inputTxn i = some t) (s : State) :
    performInput i s = acceptTxn t s := by
  cases i with
  | txn u => cases h; rfl
  | access a =>
    replace h : txnOfAccess a = some t := h
    simp [performInput, h]
  | resetAssert | resetCut _ | resetRelease => cases h

/-- An input writes a word to CMD exactly when its transaction does. -/
theorem commandWord_eq_some_iff {i : Input} {w : Word} :
    commandWord i = some w ↔ inputTxn i = some ⟨.wr, 0x000#12, .word, w⟩ := by
  unfold commandWord
  split <;> simp_all

/-- Out of reset, a transaction that is no write of CMD only answers (10_state.md R20; 20_memory.md R56). -/
theorem performInput_of_commandWord_none {i : Input} {s : State} (hreset : s.inReset = false)
    (htxn : (inputTxn i).isSome = true) (hcmd : commandWord i = none) :
    ∃ r v, performInput i s = .next (respond r v s) := by
  obtain ⟨t, ht⟩ := Option.isSome_iff_exists.mp htxn
  rw [performInput_of_inputTxn ht]
  cases hdec : decodeTxn t with
  | error e => exact ⟨.error, 0#32, acceptTxn_rejected hreset hdec⟩
  | ok instr =>
    rw [acceptTxn_decoded hreset hdec]
    obtain ⟨w, rfl, -⟩ | hexec := decodeTxn_ok_cases hdec
    · rw [commandWord_eq_some_iff.mpr ht] at hcmd
      cases hcmd
    · exact hexec s

/-- Two commands never share a word (30_encoding.md R74). -/
theorem encode_injective : Function.Injective Command.encode := fun c d h => by
  have hok : decodeCmd d.encode = .ok c := h ▸ decodeCmd_encode c
  rw [decodeCmd_encode] at hok
  exact (Except.ok.inj hok).symm

/-- In every phase a write of a command's word runs that command; in ERROR too, where all but BEGIN and CLEAR are
ignored (60_exceptions.md R222, R224, R225). -/
theorem exec_wrCmd_encode (c : Command) (s : State) : exec (.wrCmd c.encode) s = exec c.toInstr s := by
  by_cases herror : s.phase = .error
  · rw [exec_wrCmd, execWrCmd, if_pos herror]
    split_ifs with hbegin hclear
    · obtain rfl : c = .begin_ := encode_injective hbegin
      rfl
    · obtain rfl : c = .clear := encode_injective hclear
      rfl
    · cases c with
      | begin_ => exact absurd rfl hbegin
      | clear => exact absurd rfl hclear
      | keyb b | keyend | msgb b | finish => exact congrArg Host.Outcome.next (commandIn_ignored herror).symm
  · rw [exec_wrCmd, execWrCmd, if_neg herror, decodeCmd_encode]
    exact performCommand_eq_exec c s

/-- Out of reset, the input that carries a command runs it. -/
theorem performInput_of_command {i : Input} {s : State} {c : Command} (hreset : s.inReset = false)
    (hcmd : commandWord i = some c.encode) : performInput i s = exec c.toInstr s := by
  have hdec : decodeTxn ⟨.wr, 0x000#12, .word, c.encode⟩ = .ok (.wrCmd c.encode) := decodeTxn_cmd c.encode
  rw [performInput_of_inputTxn (commandWord_eq_some_iff.mp hcmd), acceptTxn_decoded hreset hdec, exec_wrCmd_encode]

end Sys2Proof.Machine

/-! A run of commands among other transactions: the engine's elements after it are those of the commands alone. -/

namespace Sys2Proof.Machine

open Sys2Proof

/-- The state that a command leaves. -/
def commandResult (c : Command) (s : State) : State :=
  match c with
  | .begin_ => respondOkay (openPhase .key initialChain s)
  | .keyb b => commandIn .key (absorbBelow Config.lmaxKey b) s
  | .keyend => commandIn .key closeKey s
  | .msgb b => commandIn .msg (absorbBelow Config.lmaxMsg b) s
  | .finish => commandIn .msg publish s
  | .clear => respondOkay (openPhase .idle (Vector.replicate 8 0#32) s)

theorem exec_toInstr (c : Command) (s : State) : exec c.toInstr s = .next (commandResult c s) := by
  cases c <;> rfl

/-- The state that a list of commands leaves. -/
def runCommands (cs : List Command) (s : State) : State := cs.foldl (fun s c => commandResult c s) s

@[simp] theorem runCommands_nil (s : State) : runCommands [] s = s := rfl

@[simp] theorem runCommands_cons (c : Command) (cs : List Command) (s : State) :
    runCommands (c :: cs) s = runCommands cs (commandResult c s) := rfl

@[simp] theorem runCommands_append (cs ds : List Command) (s : State) :
    runCommands (cs ++ ds) s = runCommands ds (runCommands cs s) := List.foldl_append

/-! What a command leaves of the model's own fields. -/

theorem sameOutside_commandIn {p : Phase} {f : State → State} (hf : ∀ s, SameOutside s (f s)) (s : State) :
    SameOutside s (commandIn p f s) := by
  obtain ⟨-, h⟩ | ⟨-, -, h⟩ | ⟨-, -, h⟩ := commandIn_cases p f s
  · rw [h]; exact ⟨rfl, rfl, rfl⟩
  · rw [h]; exact hf s
  · rw [h]; exact ⟨rfl, rfl, rfl⟩

theorem sameOutside_absorbBelow (limit : Nat) (b : Byte) (s : State) : SameOutside s (absorbBelow limit b s) := by
  by_cases h : s.len.toNat = limit
  · rw [absorbBelow_at h]; exact ⟨rfl, rfl, rfl⟩
  · rw [absorbBelow_below h]; exact ⟨absorb_inReset b s, absorb_pending b s, absorb_freeCount b s⟩

/-- A command leaves the model's own fields but the response as they were. -/
theorem sameOutside_commandResult (c : Command) (s : State) : SameOutside s (commandResult c s) := by
  cases c with
  | begin_ | clear => exact ⟨rfl, rfl, rfl⟩
  | keyb b | msgb b => exact sameOutside_commandIn (sameOutside_absorbBelow _ b) s
  | keyend => exact sameOutside_commandIn (f := closeKey) (fun _ => ⟨rfl, rfl, rfl⟩) s
  | finish => exact sameOutside_commandIn (f := publish) (fun _ => ⟨rfl, rfl, rfl⟩) s

/-! What a command does to the engine's elements depends on them alone. -/

theorem SameEngine.refl (s : State) : SameEngine s s := ⟨rfl, rfl, rfl, rfl, rfl, rfl, rfl, rfl⟩

theorem SameEngine.trans {s t u : State} (hst : SameEngine s t) (htu : SameEngine t u) : SameEngine s u := by
  simp_all [SameEngine]

theorem sameEngine_absorb {s t : State} (h : SameEngine s t) (b : Byte) :
    SameEngine (absorb b s) (absorb b t) := by
  obtain ⟨hphase, herr, hh, hbuf, hbcnt, hlen, hkp, hd⟩ := h
  by_cases hfull : s.bcnt = 64#7
  · simp [SameEngine, absorb_full hfull, absorb_full (hbcnt.trans hfull), *]
  · simp [SameEngine, absorb_room hfull, absorb_room (hbcnt ▸ hfull), *]

theorem sameEngine_absorbBelow {s t : State} (h : SameEngine s t) (limit : Nat) (b : Byte) :
    SameEngine (absorbBelow limit b s) (absorbBelow limit b t) := by
  obtain ⟨-, -, -, -, -, hlen, -, -⟩ := id h
  rw [absorbBelow, absorbBelow, hlen]
  split
  · exact SameEngine.refl _
  · exact sameEngine_absorb h b

theorem sameEngine_closeKey {s t : State} (h : SameEngine s t) :
    SameEngine (closeKey s) (closeKey t) := by
  obtain ⟨hphase, herr, hh, hbuf, hbcnt, hlen, hkp, hd⟩ := h
  have hkey : keyFromState t = keyFromState s := by simp only [keyFromState, tail, bufPrefix, hh, hbuf, hbcnt, hlen]
  simp [SameEngine, herr, hd, hkey]

theorem sameEngine_publish {s t : State} (h : SameEngine s t) :
    SameEngine (publish s) (publish t) := by
  obtain ⟨hphase, herr, hh, hbuf, hbcnt, hlen, hkp, hd⟩ := h
  have hinner : innerFromState t = innerFromState s := by
    simp only [innerFromState, tail, bufPrefix, hh, hbuf, hbcnt, hlen]
  simp [SameEngine, herr, hkp, hinner]

theorem sameEngine_commandIn {s t : State} (h : SameEngine s t) (p : Phase) {f : State → State}
    (hf : SameEngine (f s) (f t)) : SameEngine (commandIn p f s) (commandIn p f t) := by
  obtain ⟨hphase, -⟩ := id h
  rw [commandIn, commandIn, hphase]
  split
  · exact h
  · split
    · exact hf
    · exact SameEngine.refl _

theorem sameEngine_commandResult {s t : State} (h : SameEngine s t) (c : Command) :
    SameEngine (commandResult c s) (commandResult c t) := by
  cases c with
  | begin_ | clear => exact SameEngine.refl _
  | keyb b | msgb b => exact sameEngine_commandIn h _ (sameEngine_absorbBelow h _ b)
  | keyend => exact sameEngine_commandIn h _ (sameEngine_closeKey h)
  | finish => exact sameEngine_commandIn h _ (sameEngine_publish h)

theorem sameEngine_runCommands {s t : State} (h : SameEngine s t) (cs : List Command) :
    SameEngine (runCommands cs s) (runCommands cs t) := by
  induction cs generalizing s t with
  | nil => exact h
  | cons c cs ih => exact ih (sameEngine_commandResult h c)

/-! One step of a run, by what its input carries, and the whole run. -/

/-- A transaction that is no write of CMD leaves the engine's elements. -/
theorem step_of_commandWord_none {i : Input} {rest : List Input} {s : State} (hreset : s.inReset = false)
    (hpending : s.pending = i :: rest) (htxn : (inputTxn i).isSome = true) (hcmd : commandWord i = none) :
    ∃ t, step s = .next t ∧ t.pending = rest ∧ t.inReset = false ∧ SameEngine s t := by
  obtain ⟨r, v, hnext⟩ := performInput_of_commandWord_none (s := { s with pending := rest }) hreset htxn hcmd
  exact ⟨_, (step_performs hpending).trans hnext, rfl, hreset, SameEngine.refl s⟩

/-- The input that carries a command brings the engine's elements where the command brings them. -/
theorem step_of_command {i : Input} {rest : List Input} {s : State} {c : Command} (hreset : s.inReset = false)
    (hpending : s.pending = i :: rest) (hcmd : commandWord i = some c.encode) :
    ∃ t, step s = .next t ∧ t.pending = rest ∧ t.inReset = false ∧ SameEngine (commandResult c s) t := by
  have hnext := performInput_of_command (s := { s with pending := rest }) hreset hcmd
  rw [exec_toInstr] at hnext
  obtain ⟨hreset', hpending', -⟩ := sameOutside_commandResult c { s with pending := rest }
  have hsame : SameEngine s { s with pending := rest } := SameEngine.refl s
  exact ⟨_, (step_performs hpending).trans hnext, hpending', hreset'.trans hreset, sameEngine_commandResult hsame c⟩

theorem runSteps_succ {s t : State} (h : step s = .next t) (n : Nat) : runSteps (n + 1) s = runSteps n t := by
  rw [runSteps, h]

/-- The words that the lines of a list of commands write. -/
theorem filterMap_commandWord_commands (cs : List Command) :
    (inputsOf (cs.map .command)).filterMap commandWord = cs.map Command.encode := by
  induction cs with
  | nil => rfl
  | cons c cs ih => exact congrArg (c.encode :: ·) ih

/-- Inputs that carry a list of commands bring the engine's elements where the commands alone bring them, whatever reads
and bus errors stand between them (20_memory.md R56; 60_exceptions.md R228). -/
theorem runSteps_of_carriesCommands {cs : List Command} {ins rest : List Input} {s : State}
    (hreset : s.inReset = false) (hins : CarriesCommands (cs.map .command) ins) (hpending : s.pending = ins ++ rest) :
    ∃ t, runSteps ins.length s = .next t ∧ t.pending = rest ∧ t.inReset = false ∧
      SameEngine (runCommands cs s) t := by
  obtain ⟨htxns, hwords⟩ := hins
  rw [filterMap_commandWord_commands] at hwords
  induction ins generalizing cs s with
  | nil =>
    obtain rfl : cs = [] := List.map_eq_nil_iff.mp hwords.symm
    exact ⟨s, rfl, hpending, hreset, SameEngine.refl s⟩
  | cons i ins ih =>
    obtain ⟨htxn, htxns⟩ := List.forall_mem_cons.mp htxns
    cases hcmd : commandWord i with
    | none =>
      rw [List.filterMap_cons_none hcmd] at hwords
      obtain ⟨u, hstep, hupending, hureset, hu⟩ := step_of_commandWord_none hreset hpending htxn hcmd
      obtain ⟨t, hrun, ht, htreset, hsame⟩ := ih hureset hupending htxns hwords
      exact ⟨t, (runSteps_succ hstep _).trans hrun, ht, htreset, (sameEngine_runCommands hu cs).trans hsame⟩
    | some w =>
      rw [List.filterMap_cons_some hcmd] at hwords
      obtain ⟨c, cs, rfl, rfl, hrest⟩ := List.map_eq_cons_iff.mp hwords.symm
      obtain ⟨u, hstep, hupending, hureset, hu⟩ := step_of_command hreset hpending hcmd
      obtain ⟨t, hrun, ht, htreset, hsame⟩ := ih hureset hupending htxns hrest.symm
      exact ⟨t, (runSteps_succ hstep _).trans hrun, ht, htreset, (sameEngine_runCommands hu cs).trans hsame⟩

end Sys2Proof.Machine

/-! The key commands (42_key.md R162 to R164): BEGIN opens the KEY row of no bytes, KEYB extends it by its byte, and
KEYEND closes it. -/

namespace Sys2Proof.Machine

open Sys2Proof

/-- The whole row KEY of 10_state.md R31 for the key bytes k: PHASE, ERRCODE and D too. -/
def InKey (k : List Byte) (s : State) : Prop :=
  s.phase = .key ∧ s.errCode = .none ∧ KeyRow k s ∧ DigestErased s

/-- BEGIN opens a computation with no key bytes (41_session.md R140). -/
theorem inKey_begin (s : State) : InKey [] (commandResult .begin_ s) :=
  ⟨rfl, rfl, ⟨Nat.zero_le _, streaming_nil rfl rfl rfl, rfl⟩, rfl⟩

/-- KEYB appends its byte to the key, below the limit (42_key.md R162). -/
theorem inKey_keyb {k : List Byte} {s : State} (h : InKey k s) (hlt : k.length < Config.lmaxKey) (b : Byte) :
    InKey (k ++ [b]) (commandResult (.keyb b) s) := by
  obtain ⟨hphase, herr, ⟨-, hstream, hkp⟩, hd⟩ := h
  obtain ⟨-, -, -, hlen⟩ := id hstream
  have hresult : commandResult (.keyb b) s = respondOkay (absorb b s) := by
    rw [commandResult, commandIn_legal hphase (by decide), absorbBelow_below (by omega)]
  have hlength : (k ++ [b]).length = k.length + 1 := List.length_append
  have hstream' : Streaming initialChain (k ++ [b]) (absorb b s) :=
    streaming_absorb hstream (by rw [Config.lmaxKey] at hlt; omega) b
  rw [hresult]
  exact ⟨(absorb_phase b s).trans hphase, (absorb_errCode b s).trans herr,
    ⟨by omega, hstream', (absorb_kp b s).trans hkp⟩, (absorb_d b s).trans hd⟩

/-- The KEYB of every byte of a string append the string to the key. -/
theorem inKey_keybs {k l : List Byte} {s : State} (h : InKey k s) (hle : (k ++ l).length ≤ Config.lmaxKey) :
    InKey (k ++ l) (runCommands (l.map .keyb) s) := by
  induction l generalizing k s with
  | nil => rwa [List.append_nil]
  | cons b l ih =>
    have hlt : k.length < Config.lmaxKey := by
      rw [List.length_append, List.length_cons] at hle
      omega
    rw [List.append_cons] at hle ⊢
    exact ih (inKey_keyb h hlt b) hle

/-- KEYEND in KEY runs its pseudocode (42_key.md R163). -/
theorem commandResult_keyend {s : State} (h : s.phase = .key) :
    commandResult .keyend s = respondOkay (closeKey s) := by
  rw [commandResult, commandIn_legal h (by decide)]

/-- KEYEND forms K' of the key absorbed. -/
theorem closeKey_kp_of_keyRow {k : List Byte} {s : State} (h : KeyRow k s) : (closeKey s).kp.toList = knorm k := by
  rw [closeKey_kp, keyFromState_of_keyRow h, fitBytes_toList (knorm_length k)]

/-- KEYEND begins the inner hash of the key absorbed. -/
theorem closeKey_h_of_keyRow {k : List Byte} {s : State} (h : KeyRow k s) :
    (closeKey s).h = compress initialChain (innerPad k) := by
  rw [closeKey_h, keyFromState_of_keyRow h, innerPad]

/-- The commands that the first part of HMAC assembles to (30_encoding.md R78). -/
def keyCommands (k : List Byte) : List Command := .begin_ :: (k.map .keyb ++ [.keyend])

theorem keyLines_eq_map (k : List Byte) : keyLines k = (keyCommands k).map .command := by
  simp [keyLines, keyBytes, keyCommands]

/-- BEGIN, the key bytes and KEYEND close the key from its whole KEY row, whatever was before (42_key.md R164). -/
theorem runCommands_keyCommands (s : State) {k : List Byte} (hk : k.length ≤ Config.lmaxKey) :
    ∃ u, InKey k u ∧ runCommands (keyCommands k) s = respondOkay (closeKey u) := by
  have hkey : InKey k (runCommands (k.map .keyb) (commandResult .begin_ s)) := inKey_keybs (inKey_begin s) hk
  obtain ⟨hphase, -⟩ := id hkey
  refine ⟨_, hkey, ?_⟩
  rw [keyCommands, runCommands_cons, runCommands_append]
  exact commandResult_keyend hphase

/-- Settles O34: the run leaves the elements that the key commands alone leave, and those are KEYEND's on the whole KEY
row of k. -/
theorem keyLinesLeaveTheNormalizedKey : Obligations.KeyLinesLeaveTheNormalizedKey := by
  intro s k ins rest hk hreset hins hpending
  rw [keyLines_eq_map] at hins
  obtain ⟨t, hrun, hrest, htreset, hsame⟩ := runSteps_of_carriesCommands hreset hins hpending
  obtain ⟨u, ⟨-, herr, hrow, hd⟩, hcommands⟩ := runCommands_keyCommands s hk
  rw [hcommands] at hsame
  obtain ⟨htphase, hterr, hth, htbuf, htbcnt, htlen, htkp, htd⟩ := hsame
  refine ⟨t, hrun, hrest, htreset, htphase, hterr.trans herr, ?kp, hth.trans (closeKey_h_of_keyRow hrow), htbuf, htbcnt,
    htlen, htd.trans hd⟩
  case kp =>
    rw [htkp]
    exact closeKey_kp_of_keyRow hrow

end Sys2Proof.Machine

/-! Hashing from a chaining value as the padded string's blocks: Finalize of a streaming state, SHA256, and the block that
comes before the bytes absorbed (40_sha256_core.md R115 to R118). -/

namespace Sys2Proof.Machine

open Sys2Proof

/-- The digest of x, padded for `total` bytes in all, from the chaining value h. -/
def hashFrom (h : Chain) (x : List Byte) (total : Nat) : List Byte :=
  bytesOfChain ((blocks (pad x total)).foldl compress h)

/-- The first block of a string that begins with one. -/
theorem blocks_append_of_block {p : List Byte} (hp : p.length = 64) (x : List Byte) :
    blocks (p ++ x) = p :: blocks x := by
  have hcount : (p ++ x).length / 64 = x.length / 64 + 1 := by rw [List.length_append, hp]; omega
  rw [blocks, hcount, takeBlocks, List.take_left' hp, List.drop_left' hp, blocks]

/-- A whole block does not change the padding of what follows it. -/
theorem pad_append_of_block {p : List Byte} (hp : p.length = 64) (x : List Byte) (total : Nat) :
    pad (p ++ x) total = p ++ pad x total := by
  have hzeros : padZeros (p ++ x).length = padZeros x.length := by
    rw [List.length_append, hp, padZeros, padZeros, Nat.add_mod_left]
  simp only [pad, hzeros, List.append_assoc]

/-- A block at the front is compressed first. -/
theorem hashFrom_append_of_block {p : List Byte} (hp : p.length = 64) (h : Chain) (x : List Byte) (total : Nat) :
    hashFrom h (p ++ x) total = hashFrom (compress h p) x total := by
  rw [hashFrom, pad_append_of_block hp, blocks_append_of_block hp, List.foldl_cons, hashFrom]

/-- The blocks at the front are compressed first, however many are taken. -/
theorem hashFrom_of_takeBlocks {q : Nat} {x : List Byte} (hq : 64 * q ≤ x.length) (h : Chain) (total : Nat) :
    hashFrom ((takeBlocks q x).foldl compress h) (x.drop (64 * q)) total = hashFrom h x total := by
  induction q generalizing h x with
  | zero => rfl
  | succ q ih =>
    have hblock : (x.take 64).length = 64 := List.length_take_of_le (by omega)
    have hrest : x.drop (64 * (q + 1)) = (x.drop 64).drop (64 * q) := by rw [List.drop_drop]; congr 1; omega
    rw [takeBlocks, List.foldl_cons, hrest, ih (by rw [List.length_drop]; omega), ← hashFrom_append_of_block hblock,
      List.take_append_drop]

/-- Finalize hashes the padded tail, also where it compresses a full tail by itself (40_sha256_core.md R116). -/
theorem finalize_eq_hashFrom (h : Chain) (t : List Byte) (total : Nat) :
    finalize h t total = hashFrom h t total := by
  by_cases hfull : t.length = 64
  · have hsplit := hashFrom_append_of_block hfull h [] total
    rw [List.append_nil] at hsplit
    rw [finalize, finalBlocks, if_pos hfull, List.foldl_cons, hsplit, hashFrom]
  · rw [finalize, finalBlocks, if_neg hfull, hashFrom]

/-- Finalize of a streaming state hashes the whole string absorbed, for any total length. -/
theorem finalize_of_streaming_eq_hashFrom {h0 : Chain} {x : List Byte} {s : State} (h : Streaming h0 x s)
    (total : Nat) : finalize s.h (tail s) total = hashFrom h0 x total := by
  obtain ⟨q, hq⟩ := exists_length_eq_blocks_add_buffered x.length
  obtain ⟨hh, htail, -, -⟩ := (streaming_iff hq rfl).mp h
  rw [hh, htail, finalize_eq_hashFrom, hashFrom_of_takeBlocks (by omega)]

/-- SHA256 is the hash of the padded string from H0, within SHA-256's limit (40_sha256_core.md R118). -/
theorem sha256_eq_hashFrom {x : List Byte} (hlt : x.length < 2 ^ 61) :
    sha256 x = hashFrom initialChain x x.length := by
  have hstart : Streaming initialChain [] { State.reset with h := initialChain } := streaming_nil rfl rfl rfl
  have hstream := streaming_foldl_absorb (y := x) hstart hlt
  exact finalize_of_streaming_eq_hashFrom hstream x.length

/-- The hash of a block and what follows it, from the chaining value after the block: what both hashes of HMAC use. -/
theorem hashFrom_compress_eq_sha256 {p : List Byte} (hp : p.length = 64) {x : List Byte} {total : Nat}
    (htotal : total = 64 + x.length) (hlt : total < 2 ^ 61) :
    hashFrom (compress initialChain p) x total = sha256 (p ++ x) := by
  have hlength : (p ++ x).length = total := by rw [List.length_append, hp, htotal]
  rw [sha256_eq_hashFrom (hlength ▸ hlt), hlength, hashFrom_append_of_block hp]

end Sys2Proof.Machine

/-! The HEX registers in DONE as digits of the digest (44_output.md R200 to R202). -/

namespace Sys2Proof.Machine

open Sys2Proof

/-- HexChar is the digit's ASCII code (44_output.md R200). -/
theorem setWidth_hexChar (n : BitVec 4) : (hexChar n).setWidth 32 = BitVec.ofNat 32 (digitCode n.toNat) := by
  revert n
  decide

/-- The upper or the lower half of the digest byte, by division (44_output.md R201). -/
theorem toNat_hexNibble (d : List Byte) (c : Nat) : (hexNibble d c).toNat = digestNibble d c := by
  have hbyte := (d.getD (c / 2) 0#8).isLt
  rw [hexNibble, digestNibble]
  split
  · rw [BitVec.extractLsb'_toNat, Nat.shiftRight_eq_div_pow]
    omega
  · rw [BitVec.extractLsb'_toNat, Nat.shiftRight_zero]

/-- In DONE the HEX registers read the digits of D (44_output.md R202). -/
theorem hexWord_of_done {s : State} (h : s.phase = .done) (c : Nat) :
    hexWord s c = BitVec.ofNat 32 (digitCode (digestNibble s.d.toList c)) := by
  rw [hexWord, if_pos h, hexDigit, setWidth_hexChar, toNat_hexNibble]

/-- DONE without an error code is the status word 3 (44_output.md R203). -/
theorem statusWord_of_done {s : State} (hp : s.phase = .done) (he : s.errCode = .none) : statusWord s = 3#32 := by
  rw [statusWord, hp, he]
  decide

end Sys2Proof.Machine

/-! HMAC and the message commands (43_message.md R180 to R186): KEYEND opens the MSG row of no bytes, MSGB extends it by its
byte, and FINISH publishes the HMAC of the row. -/

namespace Sys2Proof.Machine

open Sys2Proof

/-- The whole row MSG of 10_state.md R31 for the key k and the message bytes m: PHASE, ERRCODE and D too. -/
def InMsg (k m : List Byte) (s : State) : Prop :=
  s.phase = .msg ∧ s.errCode = .none ∧ MsgRow k m s ∧ DigestErased s

/-- KEYEND opens the message of the key absorbed, with no bytes yet (42_key.md R163). -/
theorem inMsg_closeKey {k : List Byte} {s : State} (h : InKey k s) : InMsg k [] (respondOkay (closeKey s)) := by
  obtain ⟨-, herr, hrow, hd⟩ := h
  obtain ⟨hk, -, -⟩ := id hrow
  have hstream : Streaming (compress initialChain (innerPad k)) [] (respondOkay (closeKey s)) :=
    streaming_nil (closeKey_h_of_keyRow hrow) rfl rfl
  exact ⟨rfl, herr, ⟨hk, Nat.zero_le _, hstream, closeKey_kp_of_keyRow hrow⟩, hd⟩

/-- MSGB appends its byte to the message, below the limit (43_message.md R183). -/
theorem inMsg_msgb {k m : List Byte} {s : State} (h : InMsg k m s) (hlt : m.length < Config.lmaxMsg) (b : Byte) :
    InMsg k (m ++ [b]) (commandResult (.msgb b) s) := by
  obtain ⟨hphase, herr, ⟨hk, -, hstream, hkp⟩, hd⟩ := h
  obtain ⟨-, -, -, hlen⟩ := id hstream
  have hresult : commandResult (.msgb b) s = respondOkay (absorb b s) := by
    rw [commandResult, commandIn_legal hphase (by decide), absorbBelow_below (by omega)]
  have hlength : (m ++ [b]).length = m.length + 1 := List.length_append
  have hstream' : Streaming (compress initialChain (innerPad k)) (m ++ [b]) (absorb b s) :=
    streaming_absorb hstream (by rw [Config.lmaxMsg] at hlt; omega) b
  rw [hresult]
  exact ⟨(absorb_phase b s).trans hphase, (absorb_errCode b s).trans herr,
    ⟨hk, by omega, hstream', (congrArg Vector.toList (absorb_kp b s)).trans hkp⟩, (absorb_d b s).trans hd⟩

/-- The MSGB of every byte of a string append the string to the message. -/
theorem inMsg_msgbs {k m l : List Byte} {s : State} (h : InMsg k m s) (hle : (m ++ l).length ≤ Config.lmaxMsg) :
    InMsg k (m ++ l) (runCommands (l.map .msgb) s) := by
  induction l generalizing m s with
  | nil => rwa [List.append_nil]
  | cons b l ih =>
    have hlt : m.length < Config.lmaxMsg := by
      rw [List.length_append, List.length_cons] at hle
      omega
    rw [List.append_cons] at hle ⊢
    exact ih (inMsg_msgb h hlt b) hle

/-- FINISH forms the inner digest of the message absorbed (43_message.md R181, R184). -/
theorem innerFromState_of_msgRow {k m : List Byte} {s : State} (h : MsgRow k m s) :
    innerFromState s = innerDigest k m := by
  obtain ⟨-, hm, hstream, -⟩ := h
  obtain ⟨-, -, -, hlen⟩ := id hstream
  have hlt : 64 + s.len.toNat < 2 ^ 61 := by rw [Config.lmaxMsg] at hm; omega
  rw [innerFromState, finalize_of_streaming_eq_hashFrom hstream,
    hashFrom_compress_eq_sha256 (innerPad_length k) (by rw [hlen]) hlt, innerDigest]

/-- FINISH publishes the HMAC of the key and message absorbed (43_message.md R182, R184). -/
theorem publish_d_of_msgRow {k m : List Byte} {s : State} (h : MsgRow k m s) : (publish s).d.toList = hmac k m := by
  obtain ⟨-, -, -, hkp⟩ := id h
  have hinner : 96 = 64 + (innerDigest k m).length := by rw [innerDigest, sha256_length]
  rw [publish_d, fitBytes_toList (finalize_length _ _ _), innerFromState_of_msgRow h, hkp, finalize_eq_hashFrom]
  exact hashFrom_compress_eq_sha256 (outerPad_length k) hinner (by decide)

/-- FINISH in MSG runs its pseudocode (43_message.md R184). -/
theorem commandResult_finish {s : State} (h : s.phase = .msg) :
    commandResult .finish s = respondOkay (publish s) := by
  rw [commandResult, commandIn_legal h (by decide)]

/-- The commands that a whole computation assembles to (30_encoding.md R78). -/
def hmacCommands (k m : List Byte) : List Command := keyCommands k ++ (m.map .msgb ++ [.finish])

theorem hmacLines_eq_map (k m : List Byte) : hmacLines k m = (hmacCommands k m).map .command := by
  simp [hmacLines, keyLines_eq_map, msgBytes, hmacCommands]

/-- A whole computation publishes from the whole MSG row of its key and message, whatever was before
(43_message.md R185). -/
theorem runCommands_hmacCommands (s : State) {k m : List Byte} (hk : k.length ≤ Config.lmaxKey)
    (hm : m.length ≤ Config.lmaxMsg) :
    ∃ u, InMsg k m u ∧ runCommands (hmacCommands k m) s = respondOkay (publish u) := by
  obtain ⟨v, hkey, hcommands⟩ := runCommands_keyCommands s hk
  have hmsg : InMsg k m (runCommands (m.map .msgb) (respondOkay (closeKey v))) :=
    inMsg_msgbs (inMsg_closeKey hkey) hm
  obtain ⟨hphase, -⟩ := id hmsg
  refine ⟨_, hmsg, ?_⟩
  rw [hmacCommands, runCommands_append, hcommands, runCommands_append]
  exact commandResult_finish hphase

/-- Settles O38: the run leaves the elements that the commands alone leave, those are FINISH's on the whole MSG row of k
and m, and in DONE the registers show them. -/
theorem computationYieldsTheHmac : Obligations.ComputationYieldsTheHmac := by
  intro s k m ins rest hk hm hreset hins hpending
  rw [hmacLines_eq_map] at hins
  obtain ⟨t, hrun, hrest, htreset, hsame⟩ := runSteps_of_carriesCommands hreset hins hpending
  obtain ⟨u, ⟨-, herr, hrow, -⟩, hcommands⟩ := runCommands_hmacCommands s hk hm
  rw [hcommands] at hsame
  obtain ⟨hphase, hterr, hth, htbuf, htbcnt, htlen, htkp, htd⟩ := hsame
  have hcode : t.errCode = .none := hterr.trans herr
  have hdigest : t.d.toList = hmac k m := by
    rw [htd]
    exact publish_d_of_msgRow hrow
  refine ⟨t, hrun, hrest, htreset, hphase, hcode, hdigest, ⟨hth, htbuf, htbcnt, htlen, htkp⟩, ?status, ?hex⟩
  case status => rw [exec_rdStatus_next, statusWord_of_done hphase hcode]
  case hex =>
    intro c hc
    rw [exec_rdHex_next hc, hexWord_of_done hphase, hdigest]

/-- Settles O27: the hash of a long key is a short key of 32 bytes, padded with 32 zeros to the same K'. -/
theorem longKeyAndItsHashAgree : Obligations.LongKeyAndItsHashAgree := by
  intro k m hk
  have hshort : (sha256 k).length ≤ 64 := by rw [sha256_length]; decide
  have hlong : knorm k = sha256 k ++ zeros 32 := knorm_of_long hk
  have hhash : knorm (sha256 k) = sha256 k ++ zeros 32 := by rw [knorm_of_short hshort, sha256_length]
  exact ⟨hmac_eq_of_knorm_eq (hlong.trans hhash.symm) m, hlong, hhash⟩

end Sys2Proof.Machine

/-! The register accesses as a host sees them: the selectors of the HEX registers, the codes of the hex digits, the layout
of STATUS, and the writes to read-only registers (10_state.md R33, R35; 44_output.md R200 to R207). -/

namespace Sys2Proof.Machine

open Sys2Proof

/-- A selector whose fields are WE, register group 1, word index c and an aligned byte offset decodes to the access of
HEX[c] (20_memory.md R53; 30_encoding.md R71). -/
theorem decodeBus_hex {sel : BitVec 13} {c : Nat} {write : Bool} (hc : c < 64)
    (hsel : sel.toNat = write.toNat * 0x1000 + 0x100 + 4 * c) (w : Word) :
    decodeBus sel w = .ok (if write then .wrHex c w else .rdHex c) := by
  have halign : sel.extractLsb' 0 2 = 0#2 := by
    rw [← BitVec.toNat_inj, BitVec.extractLsb'_toNat, Nat.shiftRight_zero, BitVec.toNat_zero]
    omega
  have hgroup : sel.extractLsb' 8 4 = 0x1#4 := by
    rw [← BitVec.toNat_inj, BitVec.extractLsb'_toNat, Nat.shiftRight_eq_div_pow, BitVec.toNat_ofNat]
    omega
  have hindex : (sel.extractLsb' 2 6).toNat = c := by
    rw [BitVec.extractLsb'_toNat, Nat.shiftRight_eq_div_pow]
    omega
  have hwrite : sel.getLsbD 12 = write := by
    have hbit : sel.toNat / 2 ^ 12 = write.toNat := by omega
    rw [BitVec.getLsbD, Nat.testBit_eq_decide_div_mod_eq, hbit]
    cases write <;> rfl
  simp only [decodeBus, halign, hgroup, hindex, hwrite, ne_eq, not_true_eq_false, if_true, if_false]

/-- The selector of a read of HEX[c] (10_state.md R33). -/
theorem decode_rdHex {c : Nat} (hc : c < 64) (v : Word) :
    decode (.bus (BitVec.ofNat 13 (0x100 + 4 * c)) v) = .ok (.rdHex c) :=
  decodeBus_hex (write := false) hc (by rw [BitVec.toNat_ofNat, Bool.toNat_false]; omega) v

/-- The selector of a write of HEX[c] (10_state.md R33). -/
theorem decode_wrHex {c : Nat} (hc : c < 64) (w : Word) :
    decode (.bus (BitVec.ofNat 13 (0x1100 + 4 * c)) w) = .ok (.wrHex c w) :=
  decodeBus_hex (write := true) hc (by rw [BitVec.toNat_ofNat, Bool.toNat_true]; omega) w

theorem digestNibble_lt (d : List Byte) (c : Nat) : digestNibble d c < 16 :=
  toNat_hexNibble d c ▸ (hexNibble d c).isLt

theorem isHexCode_digitCode {n : Nat} (hn : n < 16) : isHexCode (digitCode n) := by
  rw [digitCode]
  split
  case isTrue hle => exact .inl ⟨by omega, by omega⟩
  case isFalse hgt => exact .inr ⟨by omega, by omega⟩

/-- Every hex digit's code is printable ASCII, so it fits a byte and is not 0. -/
theorem digitCode_pos_and_lt {n : Nat} (hn : n < 16) : 0 < digitCode n ∧ digitCode n < 2 ^ 8 := by
  have hcode := isHexCode_digitCode hn
  omega

theorem toNat_ofNat_digitCode {n : Nat} (hn : n < 16) : (BitVec.ofNat 32 (digitCode n)).toNat = digitCode n :=
  (BitVec.toNat_ofNat _ _).trans <| Nat.mod_eq_of_lt (by have := digitCode_pos_and_lt hn; omega)

/-- HexChar as a number is the digit's ASCII code (44_output.md R200). -/
theorem toNat_hexChar (n : BitVec 4) : (hexChar n).toNat = digitCode n.toNat := by
  have h := congrArg BitVec.toNat (setWidth_hexChar n)
  rwa [toNat_ofNat_digitCode n.isLt, BitVec.toNat_setWidth_of_le (by decide)] at h

/-- The codes of the digits in order are those of the characters 0 to 9 and a to f. -/
theorem digitCode_eq_char : ∀ n < 16, digitCode n = ("0123456789abcdef".toList.getD n ' ').toNat := by
  decide

/-- ERRCODE stands above the low byte of STATUS and PHASE in it (10_state.md R35). -/
theorem toNat_statusWord (s : State) :
    (statusWord s).toNat = s.errCode.code.toNat * 2 ^ 8 + s.phase.code.toNat := by
  have hcode := s.errCode.code.isLt
  have hphase := s.phase.code.isLt
  rw [statusWord, BitVec.toNat_or, BitVec.toNat_shiftLeft, BitVec.toNat_setWidth_of_le (by decide),
    BitVec.toNat_setWidth_of_le (by decide), Nat.mod_eq_of_lt (by rw [Nat.shiftLeft_eq]; omega),
    ← Nat.shiftLeft_add_eq_or_of_lt (by omega), Nat.shiftLeft_eq]

/-- Where ERRCODE agrees with PHASE, STATUS reads the code of a phase without an error, or 4 with one of the four error
codes (44_output.md R203). -/
theorem statusWord_mem_of_errCodeAgrees {s : State} (h : ErrCodeAgrees s) :
    statusWord s ∈ [0x000#32, 0x001#32, 0x002#32, 0x003#32, 0x104#32, 0x204#32, 0x304#32, 0x404#32] := by
  rw [statusWord]
  by_cases herror : s.phase = .error
  · have hcode : s.errCode ≠ .none := h.mpr herror
    rw [herror]
    cases hs : s.errCode with
    | none => exact absurd hs hcode
    | illegalOpcode | reservedOperand | sequence | length => decide
  · have hcode : s.errCode = .none := not_not.mp (mt h.mp herror)
    rw [hcode]
    cases hs : s.phase with
    | error => exact absurd hs herror
    | idle | key | msg | done => decide

/-- A write of STATUS is a bus error and changes nothing else (44_output.md R206). -/
theorem exec_wrStatus_next (w : Word) (s : State) :
    exec (.wrStatus w) s = .next { s with response := busErrorResponse } := rfl

/-- A write of a HEX register is a bus error and changes nothing else (44_output.md R206). -/
theorem exec_wrHex_next (c : Nat) (w : Word) (s : State) :
    exec (.wrHex c w) s = .next { s with response := busErrorResponse } := rfl

/-- Settles O39: HexChar(n) is the digit's code, which is the code of the n-th digit character. -/
theorem hexCharIsLowercaseAscii : Obligations.HexCharIsLowercaseAscii := fun n =>
  ⟨toNat_hexChar n, (toNat_hexChar n).trans (digitCode_eq_char n.toNat n.isLt)⟩

/-- Settles O40: the read answers the HEX word, which is the digit of D in DONE and 0 elsewhere, and a digit's code is
never 0. -/
theorem hexReadsShowTheDigit : Obligations.HexReadsShowTheDigit := by
  intro s c hc digit
  have hnibble : digestNibble s.d.toList c < 16 := digestNibble_lt _ c
  obtain ⟨hpos, hlt⟩ := digitCode_pos_and_lt hnibble
  have hdigit : digit.toNat = digitCode (digestNibble s.d.toList c) := toNat_ofNat_digitCode hnibble
  refine ⟨decode_rdHex hc, ?nonzero, hdigit ▸ hlt, ?done, ?other⟩
  case nonzero => exact fun hzero => hpos.ne' (hdigit.symm.trans (congrArg BitVec.toNat hzero))
  case done =>
    intro hphase
    rw [exec_rdHex_next hc, hexWord_of_done hphase]
  case other =>
    intro hphase
    rw [exec_rdHex_next hc, hexWord_of_phase_ne_done hphase]

/-- Settles O41: the words read are the HEX words, and one PHASE and one D decide all of them. -/
theorem hexRegistersAreWholeOrZero : Obligations.HexRegistersAreWholeOrZero := by
  intro s
  refine ⟨fun c => hexWord s c.val, fun c => exec_rdHex_next c.isLt s, fun hdone c => ?_,
    fun hphase c => hexWord_of_phase_ne_done hphase c.val⟩
  have hnibble : digestNibble s.d.toList c.val < 16 := digestNibble_lt _ c.val
  have hcode : (hexWord s c.val).toNat = digitCode (digestNibble s.d.toList c.val) := by
    rw [hexWord_of_done hdone, toNat_ofNat_digitCode hnibble]
  exact ⟨hcode ▸ isHexCode_digitCode hnibble, hcode⟩

/-- Settles O42: the value read is the status word, with its layout in every state. -/
theorem statusReadHasItsLayout : Obligations.StatusReadHasItsLayout :=
  ⟨fun _ => rfl, fun s =>
    ⟨statusWord s, exec_rdStatus_next s, toNat_statusWord s, statusWord_mem_of_errCodeAgrees⟩⟩

/-- Settles O43: offset 0 without WE is RD CMD, which answers 0. -/
theorem cmdReadsAsZero : Obligations.CmdReadsAsZero :=
  ⟨fun _ => rfl, exec_rdCmd_next⟩

/-- Settles O46: the selectors decode to the writes, and a write of a read-only register is a bus error. -/
theorem readOnlyWritesAreBusErrors : Obligations.ReadOnlyWritesAreBusErrors := fun s w =>
  ⟨rfl, exec_wrStatus_next w s, fun c hc => ⟨decode_wrHex hc w, exec_wrHex_next c w s⟩⟩

end Sys2Proof.Machine

/-! What a write of CMD can do, in every phase (44_output.md R205; 60_exceptions.md R221, R224, R225). -/

namespace Sys2Proof.Machine

open Sys2Proof

/-- A meaning has one next state. -/
theorem eq_of_next {o : Host.Outcome State Fault Refusal} {t u : State} (ht : o = .next t) (hu : o = .next u) : t = u :=
  Host.Outcome.next.inj (ht.symm.trans hu)

/-- A command answers (OKAY, 0) (44_output.md R205). -/
theorem commandResult_response (c : Command) (s : State) : (commandResult c s).response = okay 0#32 := by
  cases c <;> rfl

/-- A word that is no command is a protocol error outside ERROR (60_exceptions.md R221). -/
theorem exec_wrCmd_of_cmdError {w : Word} {s : State} {e : CmdError} (hphase : s.phase ≠ .error)
    (h : decodeCmd w = .error e) :
    exec (.wrCmd w) s = .next (respondOkay (protocolError (cmdErrorCode e) s)) := by
  rw [exec_wrCmd, execWrCmd, if_neg hphase, h]

/-- In ERROR a word other than BEGIN's and CLEAR's is ignored (60_exceptions.md R225). -/
theorem exec_wrCmd_ignored {w : Word} {s : State} (hphase : s.phase = .error) (hbegin : w ≠ 0x01000000#32)
    (hclear : w ≠ 0x06000000#32) : exec (.wrCmd w) s = .next (respondOkay s) := by
  rw [exec_wrCmd, execWrCmd, if_pos hphase, if_neg hbegin, if_neg hclear]

/-- All that a write of CMD can do: run its command, refuse its word, or be ignored (60_exceptions.md R224, R225). -/
theorem exec_wrCmd_cases (w : Word) (s : State) :
    (∃ c, w = Command.encode c ∧ exec (.wrCmd w) s = .next (commandResult c s)) ∨
    (∃ e, decodeCmd w = .error e ∧ s.phase ≠ .error ∧
      exec (.wrCmd w) s = .next (respondOkay (protocolError (cmdErrorCode e) s))) ∨
    (∃ e, decodeCmd w = .error e ∧ s.phase = .error ∧ exec (.wrCmd w) s = .next (respondOkay s)) := by
  cases hdec : decodeCmd w with
  | ok c =>
    obtain rfl := eq_encode_of_decodeCmd hdec
    exact .inl ⟨c, rfl, (exec_wrCmd_encode c s).trans (exec_toInstr c s)⟩
  | error e =>
    by_cases hphase : s.phase = .error
    · have hne (c : Command) : w ≠ c.encode := fun h => by
        rw [h, decodeCmd_encode] at hdec
        cases hdec
      exact .inr (.inr ⟨e, rfl, hphase, exec_wrCmd_ignored hphase (hne .begin_) (hne .clear)⟩)
    · exact .inr (.inl ⟨e, rfl, hphase, exec_wrCmd_of_cmdError hphase hdec⟩)

/-- A write of CMD answers (OKAY, 0), whatever its word (44_output.md R205). -/
theorem exec_wrCmd_response (w : Word) (s : State) : ∃ u, exec (.wrCmd w) s = .next u ∧ u.response = okay 0#32 := by
  obtain ⟨c, -, h⟩ | ⟨e, -, -, h⟩ | ⟨e, -, -, h⟩ := exec_wrCmd_cases w s
  · exact ⟨_, h, commandResult_response c s⟩
  · exact ⟨_, h, rfl⟩
  · exact ⟨_, h, rfl⟩

end Sys2Proof.Machine

/-! The address decoder by offset and kind, and the transactions that raise a bus error (20_memory.md R52, R53;
60_exceptions.md R228). -/

namespace Sys2Proof.Machine

open Sys2Proof

/-- The low two bits of SEL are 0 exactly for an aligned offset. -/
theorem sel_aligned_iff (t : Txn) : t.sel.extractLsb' 0 2 = 0#2 ↔ t.off.toNat % 4 = 0 := by
  rw [Txn.sel, BitVec.extractLsb'_append_eq_of_add_le (by decide), ← BitVec.toNat_inj, BitVec.extractLsb'_toNat,
    Nat.shiftRight_zero, BitVec.toNat_zero]

/-- Bits 11:8 of SEL name register group 1 exactly for the offsets 0x100 to 0x1FF. -/
theorem sel_hexGroup_iff (t : Txn) : t.sel.extractLsb' 8 4 = 0x1#4 ↔ 0x100 ≤ t.off.toNat ∧ t.off.toNat < 0x200 := by
  rw [Txn.sel, BitVec.extractLsb'_append_eq_of_add_le (by decide), ← BitVec.toNat_inj, BitVec.extractLsb'_toNat,
    Nat.shiftRight_eq_div_pow, BitVec.toNat_ofNat]
  omega

theorem decodeTxn_of_size_ne {t : Txn} (h : t.size ≠ .word) : decodeTxn t = .error .size := if_pos h

theorem decodeTxn_of_misaligned {t : Txn} (hsize : t.size = .word) (h : t.off.toNat % 4 ≠ 0) :
    decodeTxn t = .error .misaligned := by
  rw [decodeTxn, if_neg (not_not.mpr hsize), decodeBus, if_pos (mt (sel_aligned_iff t).mp h)]

/-- The table of 20_memory.md R53, by the offset of an aligned access of size 4. -/
theorem decodeTxn_of_aligned {t : Txn} (hsize : t.size = .word) (halign : t.off.toNat % 4 = 0) :
    decodeTxn t =
      let c := (t.sel.extractLsb' 2 6).toNat
      if 0x100 ≤ t.off.toNat ∧ t.off.toNat < 0x200 then
        .ok (if t.kind = .wr then .wrHex c t.wdata else .rdHex c)
      else if t.off.toNat = 0 then .ok (if t.kind = .wr then .wrCmd t.wdata else .rdCmd)
      else if t.off.toNat = 4 then .ok (if t.kind = .wr then .wrStatus t.wdata else .rdStatus)
      else .error .unmapped := by
  have hoff (v : BitVec 12) : t.off = v ↔ t.off.toNat = v.toNat := BitVec.toNat_inj.symm
  rw [decodeTxn, if_neg (not_not.mpr hsize), decodeBus, if_neg (not_not.mpr ((sel_aligned_iff t).mpr halign))]
  simp only [sel_hexGroup_iff, extractLsb'_sel, getLsbD_sel_twelve, hoff, BitVec.toNat_ofNat]

/-- A listed transaction decodes to nothing or to a write of a read-only register, and both answer a bus error. -/
theorem acceptTxn_of_raisesBusError {t : Txn} {s : State} (hreset : s.inReset = false) (h : RaisesBusError t) :
    acceptTxn t s = .next (busError s) := by
  by_cases hsize : t.size = .word
  · by_cases halign : t.off.toNat % 4 = 0
    · have htable := decodeTxn_of_aligned hsize halign
      obtain h | h | ⟨hcmd, hstatus, hhex⟩ | ⟨hwr, hcmd⟩ := h
      · exact absurd hsize h
      · exact absurd halign h
      · rw [if_neg (by omega), if_neg hcmd, if_neg hstatus] at htable
        exact acceptTxn_rejected hreset htable
      · simp only [if_pos hwr, if_neg hcmd] at htable
        split_ifs at htable
        · exact acceptTxn_decoded hreset htable
        · exact acceptTxn_decoded hreset htable
        · exact acceptTxn_rejected hreset htable
    · exact acceptTxn_rejected hreset (decodeTxn_of_misaligned hsize halign)
  · exact acceptTxn_rejected hreset (decodeTxn_of_size_ne hsize)

/-- A transaction that is not listed is a read of a register or a write of CMD, and answers OKAY. -/
theorem acceptTxn_of_not_raisesBusError {t : Txn} {s : State} (hreset : s.inReset = false) (h : ¬RaisesBusError t) :
    ∃ u v, acceptTxn t s = .next u ∧ u.response = okay v := by
  obtain ⟨hsize, halign, hmapped, hwr⟩ :
      t.size = .word ∧ t.off.toNat % 4 = 0 ∧
        (t.off.toNat = 0 ∨ t.off.toNat = 4 ∨ (0x100 ≤ t.off.toNat ∧ t.off.toNat ≤ 0x1FC)) ∧
        (t.kind = .wr → t.off.toNat = 0) := by
    simp only [RaisesBusError, not_or, not_and, not_not] at h
    obtain ⟨hsize, halign, hmapped, hwr⟩ := h
    exact ⟨hsize, halign, by omega, hwr⟩
  have htable := decodeTxn_of_aligned hsize halign
  split_ifs at htable with hhex hkind hcmd hkind hstatus hkind
  · have := hwr hkind
    omega
  · have hexec := exec_rdHex_next (t.sel.extractLsb' 2 6).isLt s
    exact ⟨_, _, (acceptTxn_decoded hreset htable).trans hexec, rfl⟩
  · obtain ⟨u, hexec, hresponse⟩ := exec_wrCmd_response t.wdata s
    exact ⟨u, _, (acceptTxn_decoded hreset htable).trans hexec, hresponse⟩
  · exact ⟨_, _, acceptTxn_decoded hreset htable, rfl⟩
  · have := hwr hkind
    omega
  · exact ⟨_, _, acceptTxn_decoded hreset htable, rfl⟩
  · omega

/-- Settles O8: the step is the accepted transaction's, which answers a bus error exactly where the list says so. -/
theorem busErrorsAreExactlyThoseListed : Obligations.BusErrorsAreExactlyThoseListed := by
  intro s t rest hpending hreset
  rw [step_performs hpending]
  exact ⟨acceptTxn_of_raisesBusError (s := { s with pending := rest }) hreset,
    acceptTxn_of_not_raisesBusError (s := { s with pending := rest }) hreset⟩

end Sys2Proof.Machine

/-! The error that a word written to CMD raises outside ERROR, by its causes, and what error entry leaves
(60_exceptions.md R221 to R226). -/

namespace Sys2Proof.Machine

open Sys2Proof

/-- The error of a byte at the length limit (60_exceptions.md R223), or none. -/
def lengthError (limit : Nat) (s : State) : ErrCode := if s.len.toNat = limit then .length else .none

/-- A SEQUENCE error outside the phase p, and in p the error e. -/
def sequenceOr (p : Phase) (e : ErrCode) (s : State) : ErrCode := if s.phase = p then e else .sequence

/-- The error that a well-formed command raises outside ERROR, or none (60_exceptions.md R224, third and fourth check). -/
def commandError (c : Command) (s : State) : ErrCode :=
  match c with
  | .begin_ | .clear => .none
  | .keyb _ => sequenceOr .key (lengthError Config.lmaxKey s) s
  | .keyend => sequenceOr .key .none s
  | .msgb _ => sequenceOr .msg (lengthError Config.lmaxMsg s) s
  | .finish => sequenceOr .msg .none s

/-- The error that a word written to CMD raises outside ERROR, or none (60_exceptions.md R224). -/
def wordError (w : Word) (s : State) : ErrCode :=
  match decodeCmd w with
  | .error e => cmdErrorCode e
  | .ok c => commandError c s

theorem wordError_of_cmdError {w : Word} {e : CmdError} (h : decodeCmd w = .error e) (s : State) :
    wordError w s = cmdErrorCode e := by
  rw [wordError, h]

theorem wordError_encode (c : Command) (s : State) : wordError c.encode s = commandError c s := by
  rw [wordError, decodeCmd_encode]

/-- The codes of a word that is no command are none of those that a well-formed command has. -/
theorem cmdErrorCode_ne (e : CmdError) :
    cmdErrorCode e ≠ .none ∧ cmdErrorCode e ≠ .sequence ∧ cmdErrorCode e ≠ .length := by
  cases e <;> decide

/-- The machine goes from s to t by error entry with the code, or, where the code is none, without an error. -/
def Reports (code : ErrCode) (s t : State) : Prop :=
  (code ≠ .none ∧ t = respondOkay (protocolError code s)) ∨
    (code = .none ∧ t.phase ≠ .error ∧ (t.errCode = s.errCode ∨ t.errCode = .none))

theorem reports_protocolError {code : ErrCode} (h : code ≠ .none) (s : State) :
    Reports code s (respondOkay (protocolError code s)) := .inl ⟨h, rfl⟩

theorem reports_absorbBelow {s : State} (hphase : s.phase ≠ .error) (limit : Nat) (b : Byte) :
    Reports (lengthError limit s) s (respondOkay (absorbBelow limit b s)) := by
  by_cases h : s.len.toNat = limit
  · rw [lengthError, if_pos h, absorbBelow_at h]
    exact reports_protocolError (by decide) s
  · rw [lengthError, if_neg h, absorbBelow_below h]
    exact .inr ⟨rfl, (absorb_phase b s).symm ▸ hphase, .inl (absorb_errCode b s)⟩

theorem reports_commandIn {p : Phase} {f : State → State} {e : ErrCode} {s : State} (hphase : s.phase ≠ .error)
    (hf : Reports e s (respondOkay (f s))) : Reports (sequenceOr p e s) s (commandIn p f s) := by
  obtain ⟨herror, -⟩ | ⟨-, hp, hresult⟩ | ⟨-, hp, hresult⟩ := commandIn_cases p f s
  · exact absurd herror hphase
  · rwa [sequenceOr, if_pos hp, hresult]
  · rw [sequenceOr, if_neg hp, hresult]
    exact reports_protocolError (by decide) s

/-- Outside ERROR a command reports the error of its checks (60_exceptions.md R222 to R224). -/
theorem reports_commandResult {s : State} (hphase : s.phase ≠ .error) (c : Command) :
    Reports (commandError c s) s (commandResult c s) := by
  cases c with
  | begin_ | clear => exact .inr ⟨rfl, nofun, .inr rfl⟩
  | keyb b | msgb b => exact reports_commandIn hphase (reports_absorbBelow hphase _ b)
  | keyend => exact reports_commandIn (f := closeKey) hphase (.inr ⟨rfl, nofun, .inl rfl⟩)
  | finish => exact reports_commandIn (f := publish) hphase (.inr ⟨rfl, nofun, .inl rfl⟩)

/-- Outside ERROR a write of CMD reports the error of its word (60_exceptions.md R224). -/
theorem reports_exec_wrCmd {w : Word} {s t : State} (hphase : s.phase ≠ .error) (h : exec (.wrCmd w) s = .next t) :
    Reports (wordError w s) s t := by
  obtain ⟨c, rfl, hexec⟩ | ⟨e, hdec, -, hexec⟩ | ⟨-, -, herror, -⟩ := exec_wrCmd_cases w s
  · obtain rfl := eq_of_next hexec h
    rw [wordError_encode]
    exact reports_commandResult hphase c
  · obtain rfl := eq_of_next hexec h
    rw [wordError_of_cmdError hdec]
    exact reports_protocolError (cmdErrorCode_ne e).1 s
  · exact absurd herror hphase

/-- With no error before, ERRCODE after a write of CMD is the error of its word. -/
theorem errCode_of_reports {code : ErrCode} {s t : State} (hnone : s.errCode = .none) (h : Reports code s t) :
    t.errCode = code := by
  obtain ⟨-, rfl⟩ | ⟨rfl, -, hkept | hcleared⟩ := h
  · rfl
  · exact hkept.trans hnone
  · exact hcleared

/-- A write of CMD that ends in ERROR was an error entry. -/
theorem eq_protocolError_of_reports {code : ErrCode} {s t : State} (hphase : t.phase = .error) (h : Reports code s t) :
    code ≠ .none ∧ t = respondOkay (protocolError code s) := by
  obtain hentry | ⟨-, hne, -⟩ := h
  · exact hentry
  · exact absurd hphase hne

/-! Error entry (60_exceptions.md R226). -/

theorem workingErased_protocolError (code : ErrCode) (s : State) : WorkingErased (protocolError code s) :=
  ⟨rfl, rfl, rfl, rfl, rfl⟩

/-- Error entry leaves of the state before it nothing but the model's own fields. -/
theorem sameEngine_protocolError (code : ErrCode) (s₁ s₂ : State) :
    SameEngine (protocolError code s₁) (protocolError code s₂) := ⟨rfl, rfl, rfl, rfl, rfl, rfl, rfl, rfl⟩

/-- Settles O50: a write of CMD that enters ERROR is an error entry, which overwrites every element of the engine. -/
theorem errorEntryIsPrecise : Obligations.ErrorEntryIsPrecise := by
  refine ⟨fun code s => ⟨rfl, rfl, workingErased_protocolError code s, rfl, ⟨rfl, rfl, rfl⟩, rfl⟩, ?precise⟩
  case precise =>
    intro w₁ w₂ s₁ s₂ t₁ t₂ hs₁ hs₂ hexec₁ hexec₂ ht₁ ht₂
    obtain ⟨hcode, rfl⟩ := eq_protocolError_of_reports ht₁ (reports_exec_wrCmd hs₁ hexec₁)
    obtain ⟨-, rfl⟩ := eq_protocolError_of_reports ht₂ (reports_exec_wrCmd hs₂ hexec₂)
    refine ⟨workingErased_protocolError (wordError w₁ s₁) s₁, rfl, hcode, fun hsame => ?_⟩
    replace hsame : wordError w₁ s₁ = wordError w₂ s₂ := hsame
    rw [hsame]
    exact sameEngine_protocolError _ s₁ s₂

/-! The causes of each code (60_exceptions.md R221). -/

theorem lengthError_eq_iff {limit : Nat} {s : State} {code : ErrCode} :
    lengthError limit s = code ↔
      (s.len.toNat = limit ∧ .length = code) ∨ (s.len.toNat ≠ limit ∧ .none = code) := by
  by_cases h : s.len.toNat = limit <;> simp [lengthError, h]

theorem sequenceOr_eq_iff {p : Phase} {e code : ErrCode} {s : State} :
    sequenceOr p e s = code ↔ (s.phase = p ∧ e = code) ∨ (s.phase ≠ p ∧ .sequence = code) := by
  by_cases h : s.phase = p <;> simp [sequenceOr, h]

/-- The opcodes of 30_encoding.md R74. -/
def commandOpcode : Command → BitVec 8
  | .begin_ => 1#8
  | .keyb _ => 2#8
  | .keyend => 3#8
  | .msgb _ => 4#8
  | .finish => 5#8
  | .clear => 6#8

theorem toNat_encode_div (c : Command) : c.encode.toNat / 2 ^ 24 = (commandOpcode c).toNat := by
  cases c with
  | keyb b | msgb b => exact opField_eq_iff.mp (opField_enc _ b)
  | begin_ | keyend | finish | clear => rfl

/-- A command's word has a legal opcode and no reserved bit. -/
theorem not_illegal_and_not_reserved_encode (c : Command) :
    ¬illegalOpcodeWord c.encode ∧ ¬reservedBitsWord c.encode := by
  rw [← decodeCmd_eq_illegal_iff, ← decodeCmd_eq_reservedOperand_iff, decodeCmd_encode]
  exact ⟨nofun, nofun⟩

/-- A word that is no command has an illegal opcode or a reserved bit. -/
theorem illegal_or_reserved_of_cmdError {w : Word} {e : CmdError} (h : decodeCmd w = .error e) :
    illegalOpcodeWord w ∨ reservedBitsWord w := by
  cases e with
  | illegal => exact .inl (decodeCmd_eq_illegal_iff.mp h)
  | reservedOperand => exact .inr (decodeCmd_eq_reservedOperand_iff.mp h)

/-- A well-formed command never has the code of a word that is no command. -/
theorem commandError_ne_cmdErrorCode (c : Command) (s : State) (e : CmdError) : commandError c s ≠ cmdErrorCode e := by
  obtain ⟨hnone, hsequence, hlength⟩ := cmdErrorCode_ne e
  cases c with
  | begin_ | clear => exact hnone.symm
  | keyend | finish => simp [commandError, sequenceOr_eq_iff, hnone.symm, hsequence.symm]
  | keyb b | msgb b =>
    simp [commandError, sequenceOr_eq_iff, lengthError_eq_iff, hnone.symm, hsequence.symm, hlength.symm]

theorem commandError_eq_sequence_iff {c : Command} {s : State} :
    commandError c s = .sequence ↔ outOfSequence c.encode s := by
  obtain ⟨hlegal, hreserved⟩ := not_illegal_and_not_reserved_encode c
  rw [outOfSequence, and_iff_right hlegal, and_iff_right hreserved, toNat_encode_div]
  cases c with
  | begin_ | clear => simp [commandError, commandOpcode]
  | keyend | finish => simp [commandError, commandOpcode, sequenceOr_eq_iff]
  | keyb b | msgb b => simp [commandError, commandOpcode, sequenceOr_eq_iff, lengthError_eq_iff]

theorem commandError_eq_length_iff {c : Command} {s : State} :
    commandError c s = .length ↔ beyondLength c.encode s := by
  obtain ⟨hlegal, hreserved⟩ := not_illegal_and_not_reserved_encode c
  rw [beyondLength, and_iff_right hlegal, and_iff_right hreserved, toNat_encode_div]
  cases c with
  | begin_ | clear => simp [commandError, commandOpcode]
  | keyend | finish => simp [commandError, commandOpcode, sequenceOr_eq_iff]
  | keyb b | msgb b => simp [commandError, commandOpcode, sequenceOr_eq_iff, lengthError_eq_iff]

/-- The first two checks look at the word alone. -/
theorem wordError_eq_cmdErrorCode_iff {w : Word} {s : State} {e : CmdError} :
    wordError w s = cmdErrorCode e ↔ decodeCmd w = .error e := by
  cases hdec : decodeCmd w with
  | ok c =>
    obtain rfl := eq_encode_of_decodeCmd hdec
    rw [wordError_encode]
    exact iff_of_false (commandError_ne_cmdErrorCode c s e) nofun
  | error d =>
    rw [wordError_of_cmdError hdec]
    cases d <;> cases e <;> simp [cmdErrorCode]

/-- The causes of a well-formed command's code carry over from the commands to the words. -/
theorem wordError_eq_iff_of_command {s : State} {code : ErrCode} {cause : Word → Prop}
    (hcode : ∀ e, cmdErrorCode e ≠ code) (hcommand : ∀ c : Command, commandError c s = code ↔ cause c.encode)
    (hwellFormed : ∀ w, cause w → ¬illegalOpcodeWord w ∧ ¬reservedBitsWord w) (w : Word) :
    wordError w s = code ↔ cause w := by
  cases hdec : decodeCmd w with
  | ok c =>
    obtain rfl := eq_encode_of_decodeCmd hdec
    rw [wordError_encode, hcommand]
  | error e =>
    rw [wordError_of_cmdError hdec]
    refine iff_of_false (hcode e) fun hcause => ?_
    obtain ⟨hlegal, hunreserved⟩ := hwellFormed w hcause
    exact (illegal_or_reserved_of_cmdError hdec).elim hlegal hunreserved

theorem wordError_eq_sequence_iff (w : Word) (s : State) : wordError w s = .sequence ↔ outOfSequence w s :=
  wordError_eq_iff_of_command (cause := (outOfSequence · s)) (fun e => (cmdErrorCode_ne e).2.1)
    (fun _ => commandError_eq_sequence_iff) (fun _ ⟨hlegal, hunreserved, _⟩ => ⟨hlegal, hunreserved⟩) w

theorem wordError_eq_length_iff (w : Word) (s : State) : wordError w s = .length ↔ beyondLength w s :=
  wordError_eq_iff_of_command (cause := (beyondLength · s)) (fun e => (cmdErrorCode_ne e).2.2)
    (fun _ => commandError_eq_length_iff) (fun _ ⟨hlegal, hunreserved, _⟩ => ⟨hlegal, hunreserved⟩) w

/-- Settles O47: ERRCODE is the error of the word, and each error has its cause. -/
theorem errorCodesHaveExactlyTheirCauses : Obligations.ErrorCodesHaveExactlyTheirCauses := by
  intro w s t hphase hnone hexec
  rw [errCode_of_reports hnone (reports_exec_wrCmd hphase hexec)]
  exact ⟨(wordError_eq_cmdErrorCode_iff (e := .illegal)).trans decodeCmd_eq_illegal_iff,
    (wordError_eq_cmdErrorCode_iff (e := .reservedOperand)).trans decodeCmd_eq_reservedOperand_iff,
    wordError_eq_sequence_iff w s, wordError_eq_length_iff w s⟩

end Sys2Proof.Machine

/-! The ways out of ERROR (60_exceptions.md R225, R227). -/

namespace Sys2Proof.Machine

open Sys2Proof

/-- A transaction that reaches the engine is an accepted write of CMD, or leaves every element of the engine
(20_memory.md R56). -/
theorem acceptTxn_cases (x : Txn) (s : State) :
    (∃ w, writesCmd x w ∧ acceptTxn x s = exec (.wrCmd w) s) ∨ ∃ u, acceptTxn x s = .next u ∧ SameEngine s u := by
  cases hreset : s.inReset with
  | true => exact .inr ⟨_, acceptTxn_inReset hreset, SameEngine.refl s⟩
  | false =>
    cases hdec : decodeTxn x with
    | error e => exact .inr ⟨_, acceptTxn_rejected hreset hdec, SameEngine.refl s⟩
    | ok i =>
      rw [acceptTxn_decoded hreset hdec]
      obtain ⟨w, hx, rfl⟩ | honly := decodeTxn_ok_cases hdec
      · exact .inl ⟨w, hx, rfl⟩
      · obtain ⟨r, v, hexec⟩ := honly s
        exact .inr ⟨_, hexec, SameEngine.refl s⟩

/-- An event of the reset line leaves IDLE, or is the release of a reset that is not asserted. -/
theorem performInput_of_isResetInput {i : Input} (h : isResetInput i = true) (s : State) :
    ∃ u, performInput i s = .next u ∧ (u.phase = .idle ∨ u.phase = s.phase) := by
  cases i with
  | txn x | access a => cases h
  | resetAssert | resetCut x => exact ⟨_, rfl, .inl rfl⟩
  | resetRelease =>
    refine ⟨_, rfl, ?_⟩
    rw [releaseReset]
    split
    · exact .inl rfl
    · exact .inr rfl

/-- An input is an event of the reset line or brings a transaction, unless it is an access outside the window. -/
theorem isResetInput_or_inputTxn {i : Input} {s t : State} (h : performInput i s = .next t) :
    isResetInput i = true ∨ ∃ x, inputTxn i = some x := by
  cases i with
  | txn x => exact .inr ⟨x, rfl⟩
  | access a =>
    cases hx : txnOfAccess a with
    | some x => exact .inr ⟨x, hx⟩
    | none => simp [performInput, hx] at h
  | resetAssert | resetCut x | resetRelease => exact .inl rfl

/-- A write of CMD leaves ERROR only with the word of BEGIN or of CLEAR (60_exceptions.md R225). -/
theorem exec_wrCmd_leaves_error {w : Word} {s t : State} (hs : s.phase = .error) (h : exec (.wrCmd w) s = .next t)
    (ht : t.phase ≠ .error) : (w = 0x01000000#32 ∧ t.phase = .key) ∨ (w = 0x06000000#32 ∧ t.phase = .idle) := by
  by_cases hbegin : w = 0x01000000#32
  · subst hbegin
    obtain rfl := eq_of_next (exec_wrCmd_encode .begin_ s) h
    exact .inl ⟨rfl, rfl⟩
  · by_cases hclear : w = 0x06000000#32
    · subst hclear
      obtain rfl := eq_of_next (exec_wrCmd_encode .clear s) h
      exact .inr ⟨rfl, rfl⟩
    · obtain rfl := eq_of_next (exec_wrCmd_ignored hs hbegin hclear) h
      exact absurd hs ht

/-- Settles O51: the step is its input's, and of all inputs only reset and an accepted write of CMD change PHASE. -/
theorem onlyBeginClearAndResetLeaveError : Obligations.OnlyBeginClearAndResetLeaveError := by
  intro s t hs hstep ht
  cases hpending : s.pending with
  | nil =>
    obtain rfl := eq_of_next (step_waits hpending) hstep
    exact absurd hs ht
  | cons i rest =>
    rw [step_performs hpending] at hstep
    refine ⟨i, rest, rfl, ?_⟩
    obtain hi | ⟨x, hx⟩ := isResetInput_or_inputTxn hstep
    · obtain ⟨u, hu, hphase⟩ := performInput_of_isResetInput hi { s with pending := rest }
      obtain rfl := eq_of_next hu hstep
      exact .inl ⟨hi, hphase.resolve_right fun hkept => ht (hkept.trans hs)⟩
    · rw [performInput_of_inputTxn hx] at hstep
      obtain ⟨w, hw, haccept⟩ | ⟨u, hu, hphase, -⟩ := acceptTxn_cases x { s with pending := rest }
      · obtain ⟨rfl, hphase⟩ | ⟨rfl, hphase⟩ :=
          exec_wrCmd_leaves_error (s := { s with pending := rest }) hs (haccept.symm.trans hstep) ht
        · exact .inr ⟨x, hx, .inl ⟨hw, hphase⟩⟩
        · exact .inr ⟨x, hx, .inr ⟨hw, hphase⟩⟩
      · obtain rfl := eq_of_next hu hstep
        exact absurd (hphase.trans hs) ht

end Sys2Proof.Machine

/-! The encoder and the decoder are inverse: each field of SEL and of a command word is read back where it was written
(30_encoding.md R70 to R76; 20_memory.md R53). -/

namespace Sys2Proof

/-- An instruction is a command of CMD or a register access; the six commands go together. -/
theorem Instr.casesByCommand {motive : Instr → Prop} (command : ∀ c : Command, motive c.toInstr)
    (rdCmd : motive .rdCmd) (rdStatus : motive .rdStatus) (rdHex : ∀ c, motive (.rdHex c))
    (wrCmd : ∀ w, motive (.wrCmd w)) (wrStatus : ∀ w, motive (.wrStatus w)) (wrHex : ∀ c w, motive (.wrHex c w))
    (i : Instr) : motive i := by
  cases i with
  | begin_ => exact command .begin_
  | keyb b => exact command (.keyb b)
  | keyend => exact command .keyend
  | msgb b => exact command (.msgb b)
  | finish => exact command .finish
  | clear => exact command .clear
  | rdCmd => exact rdCmd
  | rdStatus => exact rdStatus
  | rdHex c => exact rdHex c
  | wrCmd w => exact wrCmd w
  | wrStatus w => exact wrStatus w
  | wrHex c w => exact wrHex c w

/-- The encoding of a command's row is the command's word. -/
theorem encode_toInstr (c : Command) : encode c.toInstr = .cmd c.encode := by
  cases c <;> rfl

theorem wellFormed_toInstr (c : Command) : c.toInstr.wellFormed = true := by
  cases c <;> rfl

/-- A command's word decodes to the command's row. -/
theorem decode_cmd_encode (c : Command) : decode (.cmd c.encode) = .ok c.toInstr := by
  rw [decode, decodeCmd_encode]

/-- A command word that decodes is the word of a command, and decodes to that command's row. -/
theorem exists_command_of_decode_cmd {w : Word} {i : Instr} (h : decode (.cmd w) = .ok i) :
    ∃ c : Command, w = c.encode ∧ i = c.toInstr := by
  cases hdec : decodeCmd w with
  | ok c =>
    obtain rfl := eq_encode_of_decodeCmd hdec
    rw [decode_cmd_encode] at h
    exact ⟨c, rfl, (Except.ok.inj h).symm⟩
  | error e => simp [decode, hdec] at h

/-- The selector of HEX[c] as a number: WE above the offset 0x100 + 4c (10_state.md R33). -/
theorem toNat_hexSel {c : Nat} (hc : c < 64) (we : BitVec 1) :
    (hexSel we c).toNat = we.toNat * 0x1000 + 0x100 + 4 * c := by
  have hoff : (0x100#12 + BitVec.ofNat 12 (4 * c)).toNat = 0x100 + 4 * c := by
    rw [BitVec.toNat_add, BitVec.toNat_ofNat, BitVec.toNat_ofNat]
    omega
  rw [hexSel, BitVec.toNat_append, hoff, ← Nat.shiftLeft_add_eq_or_of_lt (by omega), Nat.shiftLeft_eq]
  omega

end Sys2Proof

namespace Sys2Proof.Machine

open Sys2Proof

/-- Bit 12 of SEL is its top digit. -/
theorem toNat_getLsbD_twelve (sel : BitVec 13) : (sel.getLsbD 12).toNat = sel.toNat / 0x1000 := by
  have hlt : sel.toNat / 2 ^ 12 < 2 := by have := sel.isLt; omega
  rw [BitVec.getLsbD, Nat.testBit_eq_decide_div_mod_eq, Nat.mod_eq_of_lt hlt]
  obtain h | h : sel.toNat / 2 ^ 12 = 0 ∨ sel.toNat / 2 ^ 12 = 1 := by omega
  · rw [h]; exact h.symm
  · rw [h]; exact h.symm

/-- The selector of one of two accesses, by its number and bit 12. -/
theorem eq_ite_sel {sel rd wr : BitVec 13} {off : Nat} (hoff : sel.toNat % 0x1000 = off) (hrd : rd.toNat = off)
    (hwr : wr.toNat = 0x1000 + off) : sel = if sel.getLsbD 12 then wr else rd := by
  have hbit := toNat_getLsbD_twelve sel
  rw [← BitVec.toNat_inj]
  cases hwe : sel.getLsbD 12 with
  | true =>
    rw [hwe, Bool.toNat_true] at hbit
    rw [if_pos rfl]
    omega
  | false =>
    rw [hwe, Bool.toNat_false] at hbit
    rw [if_neg Bool.false_ne_true]
    omega

/-- The selector of an access of a HEX register is the encoder's for its word index. -/
theorem eq_hexSel {sel : BitVec 13} (halign : sel.extractLsb' 0 2 = 0#2) (hgroup : sel.extractLsb' 8 4 = 0x1#4) :
    sel = if sel.getLsbD 12 then hexSel 1#1 (sel.extractLsb' 2 6).toNat
      else hexSel 0#1 (sel.extractLsb' 2 6).toNat := by
  have hlow : sel.toNat % 4 = 0 := by
    simpa [← BitVec.toNat_inj, BitVec.extractLsb'_toNat] using halign
  have hmid : sel.toNat / 0x100 % 16 = 1 := by
    simpa [← BitVec.toNat_inj, BitVec.extractLsb'_toNat, Nat.shiftRight_eq_div_pow] using hgroup
  have hindex : (sel.extractLsb' 2 6).toNat = sel.toNat / 4 % 64 := by
    rw [BitVec.extractLsb'_toNat, Nat.shiftRight_eq_div_pow]
  have hsel := toNat_hexSel (sel.extractLsb' 2 6).isLt
  refine eq_ite_sel rfl ((hsel 0#1).trans ?_) ((hsel 1#1).trans ?_)
  · rw [hindex, BitVec.toNat_zero]; omega
  · rw [hindex, BitVec.toNat_ofNat]; omega

/-- The selector of an access at an offset below 0x1000. -/
theorem eq_sel_of_offset {sel rd wr : BitVec 13} {off : BitVec 12} (hoff : sel.extractLsb' 0 12 = off)
    (hrd : rd.toNat = off.toNat) (hwr : wr.toNat = 0x1000 + off.toNat) :
    sel = if sel.getLsbD 12 then wr else rd := by
  refine eq_ite_sel ?_ hrd hwr
  rw [← hoff, BitVec.extractLsb'_toNat, Nat.shiftRight_zero]

/-- The instruction is well formed, and its encoding has this selector and, for a write, this data word: a selector
that decodes says no more (log entry 13). -/
def IsEncodingOf (i : Instr) (sel : BitVec 13) (v : Word) : Prop :=
  i.wellFormed = true ∧ ∃ v', encode i = .bus sel v' ∧ (sel.getLsbD 12 = true → v' = v)

/-- Of two accesses with the encoder's selectors, bit 12 chooses the one that is encoded. -/
theorem isEncodingOf_access {sel selRd selWr : BitVec 13} {v : Word} {rd wr : Instr}
    (hsel : sel = if sel.getLsbD 12 then selWr else selRd) (hrd : rd.wellFormed = true ∧ encode rd = .bus selRd 0#32)
    (hwr : wr.wellFormed = true ∧ encode wr = .bus selWr v) :
    IsEncodingOf (if sel.getLsbD 12 then wr else rd) sel v := by
  by_cases hwe : sel.getLsbD 12 = true
  · rw [if_pos hwe] at hsel ⊢
    exact ⟨hwr.1, v, hsel ▸ hwr.2, fun _ => rfl⟩
  · rw [if_neg hwe] at hsel ⊢
    exact ⟨hrd.1, 0#32, hsel ▸ hrd.2, fun h => absurd h hwe⟩

/-- A selector that decodes is the encoding of a register access (20_memory.md R53). -/
theorem isEncodingOf_of_decodeBus {sel : BitVec 13} {v : Word} {i : Instr} (h : decodeBus sel v = .ok i) :
    IsEncodingOf i sel v := by
  unfold decodeBus at h
  extract_lets write off c at h
  split at h
  case isTrue => cases h
  case isFalse halign =>
    split at h
    case isTrue hgroup =>
      cases h
      have hc : hexIndexOk c = true := decide_eq_true (sel.extractLsb' 2 6).isLt
      exact isEncodingOf_access (eq_hexSel (not_not.mp halign) hgroup) ⟨hc, rfl⟩ ⟨hc, rfl⟩
    case isFalse =>
      split at h
      case isTrue hcmd =>
        cases h
        exact isEncodingOf_access (eq_sel_of_offset (rd := 0x0000#13) (wr := 0x1000#13) hcmd rfl rfl) ⟨rfl, rfl⟩
            ⟨rfl, rfl⟩
      case isFalse =>
        split at h
        case isTrue hstatus =>
          cases h
          exact isEncodingOf_access (eq_sel_of_offset (rd := 0x0004#13) (wr := 0x1004#13) hstatus rfl rfl) ⟨rfl, rfl⟩
            ⟨rfl, rfl⟩
        case isFalse => cases h

theorem decode_rdHex_encode {c : Nat} (hc : c < 64) : decode (encode (.rdHex c)) = .ok (.rdHex c) :=
  decodeBus_hex (write := false) hc (toNat_hexSel hc 0#1) 0#32

theorem decode_wrHex_encode {c : Nat} (hc : c < 64) (w : Word) :
    decode (encode (.wrHex c w)) = .ok (.wrHex c w) :=
  decodeBus_hex (write := true) hc (toNat_hexSel hc 1#1) w

/-- Settles O1: a command by its word, and a HEX access by the fields of its selector; the other selectors are
constants. -/
theorem decodeOfEncodeIsTheInstruction : Obligations.DecodeOfEncodeIsTheInstruction := by
  intro i hi
  cases i using Instr.casesByCommand with
  | command c => rw [encode_toInstr, decode_cmd_encode]
  | rdCmd | rdStatus | wrCmd w | wrStatus w => rfl
  | rdHex c => exact decode_rdHex_encode (of_decide_eq_true hi)
  | wrHex c w => exact decode_wrHex_encode (of_decide_eq_true hi) w

/-- Settles O2: a command word that decodes is its command's, and a selector is its register access's. -/
theorem decodedBitsAreTheEncoding : Obligations.DecodedBitsAreTheEncoding := by
  refine ⟨fun w i h => ?cmd, fun sel v i h => isEncodingOf_of_decodeBus h⟩
  case cmd =>
    obtain ⟨c, rfl, rfl⟩ := exists_command_of_decode_cmd h
    exact ⟨wellFormed_toInstr c, encode_toInstr c⟩

/-- Settles O4: the words are those of four commands and the selector is that of HEX[63]; two other selectors are
constants. -/
theorem wordsWrittenFromTheSpecDecode : Obligations.WordsWrittenFromTheSpecDecode :=
  ⟨decode_cmd_encode .begin_, decode_cmd_encode (.keyb 0x0b#8), decode_cmd_encode .keyend,
    decode_cmd_encode (.msgb 0x48#8), rfl, decode_rdHex_encode (c := 63) (by decide), rfl⟩

end Sys2Proof.Machine

/-! The step by its transaction: the placed row of the opcode table, the table of offsets, and the host access in the
window (20_memory.md R50 to R53; 44_output.md R205). -/

namespace Sys2Proof.Machine

open Sys2Proof

/-- Out of reset, a pending transaction that decodes runs its instruction. -/
theorem step_of_decoded {s : State} {t : Txn} {rest : List Input} {i : Instr} (hpending : s.pending = .txn t :: rest)
    (hreset : s.inReset = false) (hdec : decodeTxn t = .ok i) : step s = exec i { s with pending := rest } :=
  (step_performs hpending).trans (acceptTxn_decoded (s := { s with pending := rest }) hreset hdec)

/-- Out of reset, a pending transaction that decodes to nothing is a bus error. -/
theorem step_of_rejected {s : State} {t : Txn} {rest : List Input} {e : DecodeError}
    (hpending : s.pending = .txn t :: rest) (hreset : s.inReset = false) (hdec : decodeTxn t = .error e) :
    step s = .next { s with pending := rest, response := busErrorResponse } :=
  (step_performs hpending).trans (acceptTxn_rejected (s := { s with pending := rest }) hreset hdec)

/-- Settles O5: the step is the accepted transaction's. -/
theorem stepRunsTheDecodedTransaction : Obligations.StepRunsTheDecodedTransaction := fun _ _ _ hpending hreset =>
  ⟨fun _ => step_of_decoded hpending hreset, fun _ => step_of_rejected hpending hreset⟩

/-- The bits of a row that decodes are an encoding that decodes to the same instruction. -/
theorem exists_encoding_of_decodeTableWord {nbits w : Nat} {i : Instr} (h : decodeTableWord nbits w = some i) :
    ∃ e, tableEncoding nbits w = some e ∧ decode e = .ok i := by
  cases henc : tableEncoding nbits w with
  | none => simp [decodeTableWord, henc] at h
  | some e =>
    cases hdec : decode e with
    | ok j => exact ⟨e, rfl, by simpa [decodeTableWord, henc, hdec, Except.toOption] using h⟩
    | error r => simp [decodeTableWord, henc, hdec, Except.toOption] at h

/-- The transaction that carries an encoding runs what the encoding decodes to: a command word as WR CMD of it
(44_output.md R205). -/
theorem acceptTxn_of_encoding {e : Encoding} {i : Instr} {s : State} (hreset : s.inReset = false)
    (hdec : decode e = .ok i) : acceptTxn e.txn s = exec i s := by
  cases e with
  | cmd w =>
    obtain ⟨c, rfl, rfl⟩ := exists_command_of_decode_cmd hdec
    rw [acceptTxn_decoded hreset (decodeTxn_cmd _), exec_wrCmd_encode]
  | bus sel v => exact acceptTxn_decoded hreset ((decodeTxn_bus sel v).trans hdec)

/-- Settles O6: the placed transaction is the next, with reset released, and runs the decoded row. -/
theorem placedTableWordRunsNext : Obligations.PlacedTableWordRunsNext := by
  intro s nbits w i h
  obtain ⟨e, henc, hdec⟩ := exists_encoding_of_decodeTableWord h
  have hplaced : s.withFetchWord nbits w = { s with inReset := false, pending := .txn e.txn :: s.pending } := by
    rw [State.withFetchWord, henc]
  rw [hplaced, step_performs rfl]
  exact acceptTxn_of_encoding rfl hdec

/-- The selector of a transaction as a number: bit 12 for a write, above the offset (30_encoding.md R71). -/
theorem toNat_sel (t : Txn) : t.sel.toNat = (decide (t.kind = .wr)).toNat * 0x1000 + t.off.toNat := by
  rw [Txn.sel, BitVec.toNat_append, ← Nat.shiftLeft_add_eq_or_of_lt t.off.isLt, Nat.shiftLeft_eq]
  cases t.kind <;> rfl

/-- The offset of HEX[c] decodes to the access of that register (20_memory.md R53). -/
theorem decodeTxn_of_hexOffset {t : Txn} {c : Nat} (hsize : t.size = .word) (hc : c < 64)
    (hoff : t.off.toNat = 0x100 + 4 * c) :
    decodeTxn t = .ok (if t.kind = .wr then .wrHex c t.wdata else .rdHex c) := by
  have hsel : t.sel.toNat = (decide (t.kind = .wr)).toNat * 0x1000 + 0x100 + 4 * c := by
    rw [toNat_sel, hoff, Nat.add_assoc]
  rw [decodeTxn, if_neg (not_not.mpr hsize), decodeBus_hex hc hsel]
  simp only [decide_eq_true_eq]

/-- The accesses of one register, as the table of 20_memory.md R53 writes them: by the kind. -/
theorem exec_access (k : Kind) (rd wr : Instr) (s : State) :
    exec (if k = .wr then wr else rd) s = match k with | .rd => exec rd s | .wr => exec wr s := by
  cases k <;> rfl

/-- Settles O7: the table of the decoder by offset, and outside the window no transaction. -/
theorem acceptedOffsetsFollowTheTable : Obligations.AcceptedOffsetsFollowTheTable := by
  refine ⟨fun s t rest hpending hreset hsize halign => ⟨?cmd, ?status, ?hex, ?unmapped⟩, ?outside⟩
  case cmd =>
    intro hoff
    have htable := decodeTxn_of_aligned hsize halign
    rw [if_neg (by omega), if_pos hoff] at htable
    exact (step_of_decoded hpending hreset htable).trans (exec_access t.kind _ _ _)
  case status =>
    intro hoff
    have htable := decodeTxn_of_aligned hsize halign
    rw [if_neg (by omega), if_neg (by omega), if_pos hoff] at htable
    exact (step_of_decoded hpending hreset htable).trans (exec_access t.kind _ _ _)
  case hex =>
    intro c hc hoff
    exact (step_of_decoded hpending hreset (decodeTxn_of_hexOffset hsize hc hoff)).trans (exec_access t.kind _ _ _)
  case unmapped =>
    intro hcmd hstatus hhex
    have houtside : ¬(0x100 ≤ t.off.toNat ∧ t.off.toNat < 0x200) := fun ⟨hlo, hhi⟩ =>
      hhex ((t.off.toNat - 0x100) / 4) (by omega) (by omega)
    have htable := decodeTxn_of_aligned hsize halign
    rw [if_neg houtside, if_neg hcmd, if_neg hstatus] at htable
    exact step_of_rejected hpending hreset htable
  case outside =>
    intro s a rest hpending haddr
    have hnone : txnOfAccess a = none := by rw [txnOfAccess, windowOffset_outside haddr]
    rw [step_performs hpending, performInput, hnone]

/-- Settles O9: the address BASE + off is in the window at off. -/
theorem hostAccessIsTheTransactionAtItsOffset : Obligations.HostAccessIsTheTransactionAtItsOffset := by
  intro s off v rest
  have htxn (k : Kind) (w : Word) :
      inputTxn (.access ⟨k, Config.base + off.toNat, .word, w⟩) = some ⟨k, off, .word, w⟩ := by
    rw [inputTxn, txnOfAccess, windowOffset_inside]
  exact ⟨performInput_of_inputTxn (htxn .rd 0#32) _, performInput_of_inputTxn (htxn .wr v) _⟩

end Sys2Proof.Machine

/-! What one instruction, one input and one step can make of the engine's elements, said once: the moves of the engine.
Every invariant of the elements is then a case per move (10_state.md R20; 60_exceptions.md R222 to R228). -/

namespace Sys2Proof.Machine

open Sys2Proof

/-- All that an instruction can do: run a command, enter ERROR, or only answer. -/
theorem exec_cases (i : Instr) (s : State) :
    (∃ c, exec i s = .next (commandResult c s)) ∨
    (∃ code, code ≠ .none ∧ exec i s = .next (respondOkay (protocolError code s))) ∨
    ∃ r v, exec i s = .next (respond r v s) := by
  cases i using Instr.casesByCommand with
  | command c => exact .inl ⟨c, exec_toInstr c s⟩
  | wrCmd w =>
    obtain ⟨c, -, h⟩ | ⟨e, -, -, h⟩ | ⟨e, -, -, h⟩ := exec_wrCmd_cases w s
    · exact .inl ⟨c, h⟩
    · exact .inr (.inl ⟨_, (cmdErrorCode_ne e).1, h⟩)
    · exact .inr (.inr ⟨_, _, h⟩)
  | rdHex c =>
    refine .inr (.inr ?_)
    rw [exec_rdHex, execRdHex]
    split
    · exact ⟨_, _, rfl⟩
    · exact ⟨_, _, rfl⟩
  | rdCmd | rdStatus | wrStatus w | wrHex c w => exact .inr (.inr ⟨_, _, rfl⟩)

/-- An instruction answers, and leaves the model's own fields but the response as they were. -/
theorem exec_answers (i : Instr) (s : State) :
    ∃ t, exec i s = .next t ∧ SameOutside s t ∧ ∃ r, t.response = some r := by
  obtain ⟨c, h⟩ | ⟨code, -, h⟩ | ⟨r, v, h⟩ := exec_cases i s
  · exact ⟨_, h, sameOutside_commandResult c s, _, commandResult_response c s⟩
  · exact ⟨_, h, ⟨rfl, rfl, rfl⟩, _, rfl⟩
  · exact ⟨_, h, ⟨rfl, rfl, rfl⟩, _, rfl⟩

/-- What an input can make of the engine's elements; CLEAR and reset make the same. -/
inductive EngineMove (s : State) : State → Prop
  | keeps : EngineMove s s
  | resets : EngineMove s State.reset
  | opens : EngineMove s (openPhase .key initialChain s)
  | errs (code : ErrCode) (hcode : code ≠ .none) : EngineMove s (protocolError code s)
  | absorbsKey (b : Byte) (hphase : s.phase = .key) (hlen : s.len.toNat ≠ Config.lmaxKey) : EngineMove s (absorb b s)
  | absorbsMsg (b : Byte) (hphase : s.phase = .msg) (hlen : s.len.toNat ≠ Config.lmaxMsg) : EngineMove s (absorb b s)
  | closesKey (hphase : s.phase = .key) : EngineMove s (closeKey s)
  | publishes (hphase : s.phase = .msg) : EngineMove s (publish s)

/-- The engine's elements at t are those that one of the moves from s makes. -/
def Moved (s t : State) : Prop := ∃ u, EngineMove s u ∧ SameEngine u t

theorem moved_of_sameEngine {s t : State} (h : SameEngine s t) : Moved s t := ⟨s, .keeps, h⟩

theorem moved_of_reset {s t : State} (h : SameEngine State.reset t) : Moved s t := ⟨State.reset, .resets, h⟩

theorem moved_protocolError {code : ErrCode} (hcode : code ≠ .none) (s : State) :
    Moved s (respondOkay (protocolError code s)) := ⟨_, .errs code hcode, SameEngine.refl _⟩

theorem moved_absorbBelow {limit : Nat} {b : Byte} {s : State}
    (habsorb : s.len.toNat ≠ limit → EngineMove s (absorb b s)) :
    Moved s (respondOkay (absorbBelow limit b s)) := by
  by_cases h : s.len.toNat = limit
  · rw [absorbBelow_at h]
    exact moved_protocolError (by decide) s
  · rw [absorbBelow_below h]
    exact ⟨_, habsorb h, SameEngine.refl _⟩

theorem moved_commandIn {p : Phase} {f : State → State} {s : State}
    (hf : s.phase = p → Moved s (respondOkay (f s))) : Moved s (commandIn p f s) := by
  obtain ⟨-, h⟩ | ⟨-, hp, h⟩ | ⟨-, -, h⟩ := commandIn_cases p f s
  · rw [h]; exact moved_of_sameEngine (SameEngine.refl s)
  · rw [h]; exact hf hp
  · rw [h]; exact moved_protocolError (by decide) s

theorem moved_commandResult (c : Command) (s : State) : Moved s (commandResult c s) := by
  cases c with
  | begin_ => exact ⟨_, .opens, SameEngine.refl _⟩
  | clear => exact moved_of_reset ⟨rfl, rfl, rfl, rfl, rfl, rfl, rfl, rfl⟩
  | keyb b => exact moved_commandIn fun hp => moved_absorbBelow fun hlen => .absorbsKey b hp hlen
  | msgb b => exact moved_commandIn fun hp => moved_absorbBelow fun hlen => .absorbsMsg b hp hlen
  | keyend => exact moved_commandIn fun hp => ⟨_, .closesKey hp, SameEngine.refl _⟩
  | finish => exact moved_commandIn fun hp => ⟨_, .publishes hp, SameEngine.refl _⟩

theorem moved_of_exec {i : Instr} {s t : State} (hexec : exec i s = .next t) : Moved s t := by
  obtain ⟨c, h⟩ | ⟨code, hcode, h⟩ | ⟨r, v, h⟩ := exec_cases i s
  · obtain rfl := eq_of_next h hexec
    exact moved_commandResult c s
  · obtain rfl := eq_of_next h hexec
    exact moved_protocolError hcode s
  · obtain rfl := eq_of_next h hexec
    exact moved_of_sameEngine (SameEngine.refl s)

/-- An event of the reset line brings the reset values, or is the release of a reset that is not asserted. -/
theorem moved_of_isResetInput {i : Input} {s t : State} (hi : isResetInput i = true)
    (h : performInput i s = .next t) : Moved s t := by
  have hreset {u : State} (hu : SameEngine State.reset u) (hnext : performInput i s = .next u) : Moved s t :=
    eq_of_next hnext h ▸ moved_of_reset hu
  cases i with
  | txn x | access a => cases hi
  | resetAssert | resetCut x =>
    refine hreset ?_ rfl
    exact ⟨rfl, rfl, rfl, rfl, rfl, rfl, rfl, rfl⟩
  | resetRelease =>
    obtain rfl := eq_of_next rfl h
    rw [releaseReset]
    split
    · exact moved_of_reset ⟨rfl, rfl, rfl, rfl, rfl, rfl, rfl, rfl⟩
    · exact moved_of_sameEngine (SameEngine.refl s)

theorem moved_of_performInput {i : Input} {s t : State} (h : performInput i s = .next t) : Moved s t := by
  obtain hi | ⟨x, hx⟩ := isResetInput_or_inputTxn h
  · exact moved_of_isResetInput hi h
  · rw [performInput_of_inputTxn hx] at h
    obtain ⟨w, -, haccept⟩ | ⟨u, hu, hsame⟩ := acceptTxn_cases x s
    · exact moved_of_exec (haccept.symm.trans h)
    · exact eq_of_next hu h ▸ moved_of_sameEngine hsame

/-- States with the same elements differ in the model's own fields only. -/
theorem eq_of_sameEngine {u t : State} (h : SameEngine u t) :
    t = { u with response := t.response, inReset := t.inReset, pending := t.pending, freeCount := t.freeCount } := by
  obtain ⟨hphase, herr, hh, hbuf, hbcnt, hlen, hkp, hd⟩ := h
  rw [← hphase, ← herr, ← hh, ← hbuf, ← hbcnt, ← hlen, ← hkp, ← hd]

/-- A property of the engine's elements that every move keeps is kept by every step. -/
theorem step_keeps {P : State → Prop} (hsame : ∀ {s t}, SameEngine s t → P s → P t)
    (hmove : ∀ {s u}, EngineMove s u → P s → P u) {s t : State} (hs : P s) (h : step s = .next t) : P t := by
  cases hpending : s.pending with
  | nil => exact eq_of_next (step_waits hpending) h ▸ hs
  | cons i rest =>
    rw [step_performs hpending] at h
    obtain ⟨u, hu, hut⟩ := moved_of_performInput h
    exact hsame hut (hmove hu (hsame (SameEngine.refl s) hs))

/-- With an input pending, a step stops only for an access outside the window. -/
theorem performInput_completes (i : Input) (s : State) :
    (∃ t, performInput i s = .next t) ∨
      (performInput i s = .refused .outsideWindow ∧ ∃ a, i = .access a ∧ txnOfAccess a = none) := by
  have haccept (x : Txn) : ∃ t, acceptTxn x s = .next t := by
    obtain ⟨w, -, hw⟩ | ⟨u, hu, -⟩ := acceptTxn_cases x s
    · obtain ⟨t, ht, -⟩ := exec_answers (.wrCmd w) s
      exact ⟨t, hw.trans ht⟩
    · exact ⟨u, hu⟩
  cases i with
  | txn x => exact .inl (haccept x)
  | access a =>
    cases ha : txnOfAccess a with
    | some x => exact .inl ((performInput_of_inputTxn (i := .access a) ha s).symm ▸ haccept x)
    | none => exact .inr ⟨by rw [performInput, ha], a, rfl, ha⟩
  | resetAssert | resetCut x | resetRelease => exact .inl ⟨_, rfl⟩

/-- Settles O10: every instruction answers, and a step is that of its input. -/
theorem everyTransactionCompletes : Obligations.EveryTransactionCompletes := by
  refine ⟨fun i s => (exec_answers i s).imp fun t h => h.1, fun s => ?step⟩
  case step =>
    cases hpending : s.pending with
    | nil => exact .inl ⟨s, step_waits hpending⟩
    | cons i rest =>
      rw [step_performs hpending]
      obtain h | ⟨h, a, rfl, ha⟩ := performInput_completes i { s with pending := rest }
      · exact .inl h
      · exact .inr ⟨h, a, rest, rfl, ha⟩

/-- Settles O11: of the inputs that bring a transaction only an accepted write of CMD does not keep the elements. -/
theorem onlyCmdWritesAndResetChangeTheEngine : Obligations.OnlyCmdWritesAndResetChangeTheEngine := by
  intro s t hstep hchanged
  cases hpending : s.pending with
  | nil => exact absurd (eq_of_next (step_waits hpending) hstep ▸ SameEngine.refl s) hchanged
  | cons i rest =>
    rw [step_performs hpending] at hstep
    refine ⟨i, rest, rfl, (isResetInput_or_inputTxn hstep).imp_right ?_⟩
    rintro ⟨x, hx⟩
    rw [performInput_of_inputTxn hx] at hstep
    cases hreset : s.inReset with
    | true =>
      obtain rfl := eq_of_next (acceptTxn_inReset (s := { s with pending := rest }) hreset) hstep
      exact absurd (SameEngine.refl s) hchanged
    | false =>
      obtain ⟨w, hw, -⟩ | ⟨u, hu, hsame⟩ := acceptTxn_cases x { s with pending := rest }
      · exact ⟨x, w, hx, hw, rfl⟩
      · exact absurd (eq_of_next hu hstep ▸ hsame) hchanged

/-- K' is kept, erased, or written on the way from KEY to MSG (10_state.md R28). -/
theorem kp_of_move {s u : State} (h : EngineMove s u) :
    u.kp = s.kp ∨ u.kp = Vector.replicate 64 0#8 ∨ (s.phase = .key ∧ u.phase = .msg) := by
  cases h with
  | keeps => exact .inl rfl
  | absorbsKey b | absorbsMsg b => exact .inl (absorb_kp b s)
  | resets | opens | errs | publishes => exact .inr (.inl rfl)
  | closesKey hphase => exact .inr (.inr ⟨hphase, rfl⟩)

/-- D is kept, erased, or written on the way from MSG to DONE (10_state.md R29). -/
theorem d_of_move {s u : State} (h : EngineMove s u) :
    u.d = s.d ∨ u.d = Vector.replicate 32 0#8 ∨ (s.phase = .msg ∧ u.phase = .done) := by
  cases h with
  | keeps | closesKey => exact .inl rfl
  | absorbsKey b | absorbsMsg b => exact .inl (absorb_d b s)
  | resets | opens | errs => exact .inr (.inl rfl)
  | publishes hphase => exact .inr (.inr ⟨hphase, rfl⟩)

/-- Settles O12: the frame is that of every answer, and KP and D are those of the moves. -/
theorem instructionsWriteKeyAndDigestOnlyAsListed : Obligations.InstructionsWriteKeyAndDigestOnlyAsListed := by
  intro i s t hexec
  obtain ⟨t', hexec', houtside, hresponse⟩ := exec_answers i s
  obtain rfl := eq_of_next hexec' hexec
  obtain ⟨u, hu, hphase, -, -, -, -, -, hkp, hd⟩ := moved_of_exec hexec
  rw [DigestErased, hkp, hd, hphase]
  exact ⟨houtside, hresponse, kp_of_move hu, d_of_move hu⟩

end Sys2Proof.Machine

/-! The invariants of 10_state.md, each by its moves (R23, R26 to R31). -/

namespace Sys2Proof.Machine

open Sys2Proof

/-- Settles O18: only error entry gives an error code, and only it goes to ERROR. -/
theorem stepKeepsErrCodeExactlyInError : Obligations.StepKeepsErrCodeExactlyInError := by
  intro s t hs
  refine step_keeps (P := ErrCodeAgrees) (fun hsame h => ?same) (fun hmove h => ?move) hs
  case same =>
    obtain ⟨hphase, herr, -⟩ := hsame
    rwa [ErrCodeAgrees, hphase, herr]
  case move =>
    have hout {u : State} (herr : u.errCode = .none) (hphase : u.phase ≠ .error) : ErrCodeAgrees u :=
      iff_of_false (not_not.mpr herr) hphase
    cases hmove with
    | keeps => exact h
    | resets | opens => exact hout rfl nofun
    | errs code hcode => exact iff_of_true hcode rfl
    | absorbsKey b | absorbsMsg b => rwa [ErrCodeAgrees, absorb_phase, absorb_errCode]
    | closesKey hphase | publishes hphase =>
      exact hout (not_not.mp (mt h.mp (by rw [hphase]; decide))) nofun

theorem workingErased_publish (s : State) : WorkingErased (publish s) := ⟨rfl, rfl, rfl, rfl, rfl⟩

/-- A state with its working state erased, and its digest too outside DONE, is erased outside a computation. -/
theorem erasedOutsideComputation_of_erased {s : State} (hw : WorkingErased s)
    (hd : s.phase ≠ .done → DigestErased s) : ErasedOutsideComputation s := by
  obtain ⟨-, -, -, -, hkp⟩ := id hw
  exact ⟨fun _ _ => hw, fun _ => hkp, hd⟩

/-- Absorb writes neither K' nor the digest, and stays in a computation. -/
theorem erasedOutsideComputation_absorb {s : State} (h : ErasedOutsideComputation s)
    (hphase : s.phase = .key ∨ s.phase = .msg) (b : Byte) : ErasedOutsideComputation (absorb b s) := by
  obtain ⟨-, hkp, hd⟩ := h
  rw [ErasedOutsideComputation, DigestErased, absorb_phase, absorb_kp, absorb_d]
  exact ⟨fun hkey hmsg => absurd hphase (not_or.mpr ⟨hkey, hmsg⟩), hkp, hd⟩

/-- Settles O20: every move but those of KEY and MSG erases, and those write KP and D only where they may stand. -/
theorem stepKeepsKeyAndDigestErased : Obligations.StepKeepsKeyAndDigestErased := by
  intro s t hs
  refine step_keeps (P := ErasedOutsideComputation) (fun hsame h => ?same) (fun {s u} hmove h => ?move) hs
  case same =>
    rw [eq_of_sameEngine hsame]
    exact h
  case move =>
    cases hmove with
    | keeps => exact h
    | resets => exact erasedOutsideComputation_of_erased workingErased_reset fun _ => rfl
    | opens => exact ⟨fun hkey => absurd rfl hkey, fun _ => rfl, fun _ => rfl⟩
    | errs code => exact erasedOutsideComputation_of_erased (workingErased_protocolError code s) fun _ => rfl
    | absorbsKey b hphase => exact erasedOutsideComputation_absorb h (.inl hphase) b
    | absorbsMsg b hphase => exact erasedOutsideComputation_absorb h (.inr hphase) b
    | closesKey hphase =>
      obtain ⟨-, -, hd⟩ := h
      exact ⟨fun _ hmsg => absurd rfl hmsg, fun hmsg => absurd rfl hmsg, fun _ => hd (by rw [hphase]; decide)⟩
    | publishes => exact erasedOutsideComputation_of_erased (workingErased_publish s) fun hdone => absurd rfl hdone

/-- Absorb counts its byte in the buffer: 1 after a full one. -/
theorem toNat_absorb_bcnt {s : State} (h : s.bcnt.toNat ≤ 64) (b : Byte) :
    (absorb b s).bcnt.toNat = if s.bcnt.toNat = 64 then 1 else s.bcnt.toNat + 1 := by
  split
  case isTrue hfull =>
    rw [absorb_full (BitVec.eq_of_toNat_eq hfull)]
    rfl
  case isFalse hroom =>
    rw [absorb_room (fun hfull => hroom (by rw [hfull]; rfl))]
    bv_omega

/-- The counters in their ranges, with a short key wholly in BUF. -/
def CountersKept (s : State) : Prop := CountersInRange s ∧ ShortKeyBuffered s

/-- Counters at 0 are in range. -/
theorem countersKept_of_zero {s : State} (hbcnt : s.bcnt = 0#7) (hlen : s.len = 0#61) : CountersKept s := by
  rw [CountersKept, CountersInRange, ShortKeyBuffered, hbcnt, hlen]
  exact ⟨⟨by decide, by decide, fun _ => by decide⟩, fun _ _ => rfl⟩

/-- Below the limit Absorb keeps the counters in range, and a short key wholly in BUF. -/
theorem countersKept_absorb {s : State} (h : CountersKept s) (hkey : s.len.toNat < Config.lmaxKey)
    (hmsg : s.phase = .msg → s.len.toNat < Config.lmaxMsg) (b : Byte) : CountersKept (absorb b s) := by
  obtain ⟨⟨hbcnt, -, -⟩, hshort⟩ := h
  have hlt : s.len.toNat + 1 < 2 ^ 61 := by rw [Config.lmaxKey] at hkey; omega
  rw [CountersKept, CountersInRange, ShortKeyBuffered, absorb_phase, toNat_absorb_len hlt, toNat_absorb_bcnt hbcnt]
  refine ⟨⟨?bcnt, hkey, hmsg⟩, fun hphase hle => ?short⟩
  case bcnt => split <;> omega
  case short =>
    have hall := hshort hphase (by omega)
    rw [if_neg (by omega), hall]

/-- Settles O19: Absorb counts within the limits that its command checks, and every other move sets the counters
to 0. -/
theorem stepKeepsCountersInRange : Obligations.StepKeepsCountersInRange := by
  intro s t hs hshort
  refine step_keeps (P := CountersKept) (fun hsame h => ?same) (fun {s u} hmove h => ?move) ⟨hs, hshort⟩
  case same =>
    rw [eq_of_sameEngine hsame]
    exact h
  case move =>
    obtain ⟨⟨-, hkey, hmsg⟩, -⟩ := id h
    cases hmove with
    | keeps => exact h
    | resets | opens | errs | closesKey | publishes => exact countersKept_of_zero rfl rfl
    | absorbsKey b hphase hlen =>
      exact countersKept_absorb h (lt_of_le_of_ne hkey hlen) (fun hp => by rw [hphase] at hp; cases hp) b
    | absorbsMsg b hphase hlen =>
      have hlt : s.len.toNat < Config.lmaxMsg := lt_of_le_of_ne (hmsg hphase) hlen
      exact countersKept_absorb h (hlt.trans (by decide)) (fun _ => hlt) b

end Sys2Proof.Machine

/-! The phase invariants of 10_state.md R31: the rows KEY and MSG are those that BEGIN and KEYEND open and KEYB and MSGB
extend, and FINISH leaves the row DONE. -/

namespace Sys2Proof.Machine

open Sys2Proof

theorem phaseInv_of_inKey {k : List Byte} {s : State} (h : InKey k s) : PhaseInv s := by
  obtain ⟨hphase, herr, hrow, hd⟩ := h
  rw [PhaseInv, hphase]
  exact ⟨herr, ⟨k, hrow⟩, hd⟩

theorem exists_inKey_of_phaseInv {s : State} (h : PhaseInv s) (hphase : s.phase = .key) : ∃ k, InKey k s := by
  rw [PhaseInv, hphase] at h
  obtain ⟨herr, ⟨k, hrow⟩, hd⟩ := h
  exact ⟨k, hphase, herr, hrow, hd⟩

theorem phaseInv_of_inMsg {k m : List Byte} {s : State} (h : InMsg k m s) : PhaseInv s := by
  obtain ⟨hphase, herr, hrow, hd⟩ := h
  rw [PhaseInv, hphase]
  exact ⟨herr, ⟨k, m, hrow⟩, hd⟩

theorem exists_inMsg_of_phaseInv {s : State} (h : PhaseInv s) (hphase : s.phase = .msg) : ∃ k m, InMsg k m s := by
  rw [PhaseInv, hphase] at h
  obtain ⟨herr, ⟨k, m, hrow⟩, hd⟩ := h
  exact ⟨k, m, hphase, herr, hrow, hd⟩

/-- KEYB in KEY below the limit absorbs its byte (42_key.md R162). -/
theorem commandResult_keyb {s : State} (hphase : s.phase = .key) (hlen : s.len.toNat ≠ Config.lmaxKey) (b : Byte) :
    commandResult (.keyb b) s = respondOkay (absorb b s) := by
  rw [commandResult, commandIn_legal hphase (by decide), absorbBelow_below hlen]

/-- MSGB in MSG below the limit absorbs its byte (43_message.md R183). -/
theorem commandResult_msgb {s : State} (hphase : s.phase = .msg) (hlen : s.len.toNat ≠ Config.lmaxMsg) (b : Byte) :
    commandResult (.msgb b) s = respondOkay (absorb b s) := by
  rw [commandResult, commandIn_legal hphase (by decide), absorbBelow_below hlen]

theorem phaseInv_absorb_key {s : State} (h : PhaseInv s) (hphase : s.phase = .key)
    (hlen : s.len.toNat ≠ Config.lmaxKey) (b : Byte) : PhaseInv (respondOkay (absorb b s)) := by
  obtain ⟨k, hkey⟩ := exists_inKey_of_phaseInv h hphase
  obtain ⟨-, -, ⟨hle, ⟨-, -, -, hcount⟩, -⟩, -⟩ := id hkey
  rw [← commandResult_keyb hphase hlen]
  exact phaseInv_of_inKey (inKey_keyb hkey (lt_of_le_of_ne hle (hcount ▸ hlen)) b)

theorem phaseInv_absorb_msg {s : State} (h : PhaseInv s) (hphase : s.phase = .msg)
    (hlen : s.len.toNat ≠ Config.lmaxMsg) (b : Byte) : PhaseInv (respondOkay (absorb b s)) := by
  obtain ⟨k, m, hmsg⟩ := exists_inMsg_of_phaseInv h hphase
  obtain ⟨-, -, ⟨-, hle, ⟨-, -, -, hcount⟩, -⟩, -⟩ := id hmsg
  rw [← commandResult_msgb hphase hlen]
  exact phaseInv_of_inMsg (inMsg_msgb hmsg (lt_of_le_of_ne hle (hcount ▸ hlen)) b)

/-- FINISH leaves the HMAC of the row's key and message, and nothing else (10_state.md R31, the row DONE). -/
theorem phaseInv_publish {s : State} (h : PhaseInv s) (hphase : s.phase = .msg) : PhaseInv (publish s) := by
  obtain ⟨k, m, -, herr, hrow, -⟩ := exists_inMsg_of_phaseInv h hphase
  obtain ⟨hk, hm, -, -⟩ := id hrow
  exact ⟨herr, workingErased_publish s, k, m, hk, hm, publish_d_of_msgRow hrow⟩

theorem phaseInv_reset : PhaseInv State.reset := ⟨rfl, workingErased_reset, rfl⟩

/-- The phase invariants speak of the engine's elements only. -/
theorem phaseInv_of_sameEngine {s t : State} (hsame : SameEngine s t) (h : PhaseInv s) : PhaseInv t := by
  rw [eq_of_sameEngine hsame]
  exact h

/-- Settles O17: each move leads to the row of its phase, from the row of the phase where it is made. -/
theorem stepKeepsThePhaseInvariants : Obligations.StepKeepsThePhaseInvariants := by
  intro s t hs
  refine step_keeps (P := PhaseInv) phaseInv_of_sameEngine (fun {s u} hmove h => ?move) hs
  case move =>
    cases hmove with
    | keeps => exact h
    | resets => exact phaseInv_reset
    | opens => exact phaseInv_of_inKey (inKey_begin s)
    | errs code hcode => exact ⟨hcode, workingErased_protocolError code s, rfl⟩
    | absorbsKey b hphase hlen => exact phaseInv_absorb_key h hphase hlen b
    | absorbsMsg b hphase hlen => exact phaseInv_absorb_msg h hphase hlen b
    | closesKey hphase =>
      obtain ⟨k, hkey⟩ := exists_inKey_of_phaseInv h hphase
      exact phaseInv_of_inMsg (inMsg_closeKey hkey)
    | publishes hphase => exact phaseInv_publish h hphase

/-- In MSG the instruction FINISH publishes (43_message.md R184). -/
theorem exec_finish_of_msg {s : State} (h : s.phase = .msg) : exec .finish s = .next (respondOkay (publish s)) := by
  rw [← commandResult_finish h]
  exact exec_toInstr .finish s

/-- Settles O37: FINISH in MSG publishes, and from the MSG row the HMAC. -/
theorem finishLeavesTheHmac : Obligations.FinishLeavesTheHmac := by
  intro s k m hphase hrow
  exact ⟨_, exec_finish_of_msg hphase, rfl, publish_d_of_msgRow hrow⟩

end Sys2Proof.Machine

/-! Reset from any state (10_state.md R37; 70_reset_and_hazards.md R250, R251). -/

namespace Sys2Proof.Machine

open Sys2Proof

/-- A transaction that arrives while reset is asserted is not accepted (70_reset_and_hazards.md R250). -/
theorem step_inReset {s : State} {t : Txn} {rest : List Input} (hreset : s.inReset = true)
    (hpending : s.pending = .txn t :: rest) : step s = .next { s with pending := rest, response := none } :=
  (step_performs hpending).trans (acceptTxn_inReset (s := { s with pending := rest }) hreset)

/-- The release of an asserted reset leaves the reset state (70_reset_and_hazards.md R250). -/
theorem step_release {s : State} {rest : List Input} (hreset : s.inReset = true)
    (hpending : s.pending = .resetRelease :: rest) :
    step s = .next { State.reset with pending := rest, freeCount := s.freeCount } := by
  rw [step_performs hpending, performInput, releaseReset, if_pos hreset]
  rfl

/-- However many transactions arrive while reset is asserted, its release leaves the reset state. -/
theorem runSteps_inReset {s : State} {ts : List Txn} {rest : List Input} (hreset : s.inReset = true)
    (hpending : s.pending = ts.map .txn ++ [.resetRelease] ++ rest) :
    runSteps (ts.length + 1) s = .next { State.reset with pending := rest, freeCount := s.freeCount } := by
  induction ts generalizing s with
  | nil => exact runSteps_succ (step_release hreset hpending) 0
  | cons t ts ih => exact (runSteps_succ (step_inReset hreset hpending) _).trans (ih hreset rfl)

/-- Settles O14: the assertion, then the transactions not accepted up to the release. -/
theorem resetFromAnyStateRestoresTheResetState : Obligations.ResetFromAnyStateRestoresTheResetState := by
  intro s ts rest hpending
  refine ⟨?run, fun u hreset t us => step_inReset hreset⟩
  case run =>
    have hassert : step s = .next (assertReset { s with pending := ts.map .txn ++ [.resetRelease] ++ rest }) :=
      step_performs hpending
    exact (runSteps_succ hassert _).trans (runSteps_inReset rfl rfl)

/-- Settles O15: the cut resets every element at once, and the release leaves the reset state. -/
theorem resetInsideATransactionRestoresTheResetState : Obligations.ResetInsideATransactionRestoresTheResetState := by
  intro s t rest hpending
  refine ⟨_, step_performs hpending, ⟨rfl, rfl, rfl, rfl, rfl, rfl, rfl, rfl⟩, rfl, ?release⟩
  case release => exact step_release rfl rfl

/-- Settles O16: the reset state has every element erased, PHASE IDLE and no error. -/
theorem resetMeetsTheInvariants : Obligations.ResetMeetsTheInvariants := by
  obtain ⟨hcounters, hshort⟩ : CountersKept State.reset := countersKept_of_zero reset_bcnt reset_len
  exact ⟨phaseInv_reset, iff_of_false (not_not.mpr reset_errCode) nofun, hcounters,
    erasedOutsideComputation_of_erased workingErased_reset fun _ => reset_d, hshort⟩

end Sys2Proof.Machine

/-! Hashing by blocks: SHA256 of a whole string, and the outer hash of HMAC (40_sha256_core.md R118;
43_message.md R182). -/

namespace Sys2Proof.Machine

open Sys2Proof

/-- Settles O25: both are the hash of the padded string from H0. -/
theorem streamingHashIsThePaddedHash : Obligations.StreamingHashIsThePaddedHash := fun _ hlt => sha256_eq_hashFrom hlt

/-- A string of one block is its only block. -/
theorem blocks_of_block {p : List Byte} (hp : p.length = 64) : blocks p = [p] := by
  have h := blocks_append_of_block hp []
  rwa [List.append_nil] at h

/-- The padding of a digest after one block, the length field of 768 bits written out (43_message.md R182). -/
theorem pad_digest {x : List Byte} (hx : x.length = 32) :
    pad x 96 = x ++ [0x80#8] ++ zeros 23 ++ [0#8, 0#8, 0#8, 0#8, 0#8, 0#8, 0x03#8, 0x00#8] := by
  rw [pad, hx]
  rfl

/-- Settles O28: the outer pad is a block, and the padded inner digest is the other. -/
theorem outerHashIsTwoCompressions : Obligations.OuterHashIsTwoCompressions := by
  intro k m
  have hdigest : (innerDigest k m).length = 32 := sha256_length _
  have hblock : (pad (innerDigest k m) 96).length = 64 := by rw [pad_length, hdigest]; rfl
  rw [hmac, ← hashFrom_compress_eq_sha256 (outerPad_length k) (total := 96) (by rw [hdigest]) (by decide), hashFrom,
    blocks_of_block hblock, List.foldl_cons, List.foldl_nil, pad_digest hdigest]

end Sys2Proof.Machine

/-! A write of CMD by its word: the command's own word, the words that are no command, and the checks that all commands
share (44_output.md R205; 60_exceptions.md R221 to R225). -/

namespace Sys2Proof.Machine

open Sys2Proof

/-- A word that is no command is not the word of any command. -/
theorem ne_encode_of_cmdError {w : Word} {e : CmdError} (h : decodeCmd w = .error e) (c : Command) : w ≠ c.encode := by
  rintro rfl
  rw [decodeCmd_encode] at h
  cases h

/-- In ERROR a word that is no command is ignored (60_exceptions.md R225). -/
theorem exec_wrCmd_of_cmdError_ignored {w : Word} {s : State} {e : CmdError} (hphase : s.phase = .error)
    (h : decodeCmd w = .error e) : exec (.wrCmd w) s = .next (respondOkay s) :=
  exec_wrCmd_ignored hphase (ne_encode_of_cmdError h .begin_) (ne_encode_of_cmdError h .clear)

theorem errorEntered_protocolError (code : ErrCode) (s : State) :
    ErrorEntered code s (respondOkay (protocolError code s)) :=
  ⟨rfl, rfl, workingErased_protocolError code s, rfl, ⟨rfl, rfl, rfl⟩, rfl⟩

/-- The row of other words in 60_exceptions.md R222: a protocol error outside ERROR, ignored in it. -/
theorem cmdError_checked {w : Word} {e : CmdError} (h : decodeCmd w = .error e) (s : State) :
    (s.phase ≠ .error → ∃ t, exec (.wrCmd w) s = .next t ∧ ErrorEntered (cmdErrorCode e) s t) ∧
      (s.phase = .error → exec (.wrCmd w) s = .next { s with response := okay 0#32 }) :=
  ⟨fun hphase => ⟨_, exec_wrCmd_of_cmdError hphase h, errorEntered_protocolError _ s⟩,
    fun hphase => exec_wrCmd_of_cmdError_ignored hphase h⟩

theorem reservedOperandChecked_of_reservedBitsWord {w : Word} (h : reservedBitsWord w) (s : State) :
    ReservedOperandChecked w s :=
  cmdError_checked (decodeCmd_eq_reservedOperand_iff.mpr h) s

/-- The opcode of a command without operand, in another word than the command's (60_exceptions.md R221, code 2). -/
theorem reservedOperandChecked_of_ne {w : Word} {op : Nat} (hop : w.toNat / 2 ^ 24 = op) (hmem : op ∈ [1, 3, 5, 6])
    (hne : w ≠ BitVec.ofNat 32 (op * 2 ^ 24)) (s : State) : ReservedOperandChecked w s := by
  have hlow : w.toNat % 2 ^ 24 ≠ 0 := fun hzero =>
    hne (BitVec.eq_of_toNat_eq (by rw [BitVec.toNat_ofNat]; omega))
  exact reservedOperandChecked_of_reservedBitsWord (.inl ⟨hop ▸ hmem, hlow⟩) s

/-- The opcode of a byte command with a reserved bit (60_exceptions.md R221, code 2). -/
theorem reservedOperandChecked_of_byteCommand {w : Word} {op : Nat} (hop : w.toNat / 2 ^ 24 = op)
    (hmem : op ∈ [2, 4]) (hbits : w.toNat / 2 ^ 8 % 2 ^ 16 ≠ 0) (s : State) : ReservedOperandChecked w s :=
  reservedOperandChecked_of_reservedBitsWord (.inr ⟨hop ▸ hmem, hbits⟩) s

/-- The pre-checks make a command legal in its one phase (60_exceptions.md R222). -/
theorem legalOnlyIn_of_commandIn {p : Phase} {f : State → State} {i : Instr} {s : State}
    (hexec : exec i s = .next (commandIn p f s)) : LegalOnlyIn p i s := by
  refine ⟨fun hp herror => ⟨_, hexec, ?sequence⟩, fun herror => ?ignored⟩
  case sequence =>
    rw [commandIn_sequence herror hp]
    exact errorEntered_protocolError _ s
  case ignored => exact hexec.trans (congrArg _ (commandIn_ignored herror))

/-- Settles O45: a command word is the word of its command, and of the other words the checks above speak. -/
theorem cmdWriteRunsItsWord : Obligations.CmdWriteRunsItsWord := by
  intro w s
  refine ⟨rfl, ?okay, fun c hdec => ?command, fun e hdec => cmdError_checked hdec s⟩
  case okay =>
    obtain ⟨t, hexec, hresponse⟩ := exec_wrCmd_response w s
    obtain ⟨u, hexec', houtside, -⟩ := exec_answers (.wrCmd w) s
    obtain rfl := eq_of_next hexec' hexec
    exact ⟨u, hexec, hresponse, houtside⟩
  case command =>
    obtain rfl := eq_encode_of_decodeCmd hdec
    exact exec_wrCmd_encode c s

/-- Settles O49: in ERROR BEGIN and CLEAR run as in every phase, and other words are ignored. -/
theorem errorPhaseIgnoresOtherWords : Obligations.ErrorPhaseIgnoresOtherWords := by
  intro w s hphase
  refine ⟨exec_wrCmd_ignored hphase, ?begin, ?clear⟩
  case begin =>
    rintro rfl
    exact ⟨_, exec_wrCmd_encode .begin_ s, rfl, rfl⟩
  case clear =>
    rintro rfl
    exact ⟨_, exec_wrCmd_encode .clear s, rfl, rfl⟩

end Sys2Proof.Machine

/-! The commands in each phase (41_session.md; 42_key.md; 43_message.md; 60_exceptions.md R222, R223). -/

namespace Sys2Proof.Machine

open Sys2Proof

/-- KEY without an error code is the status word 1 (44_output.md R203). -/
theorem statusWord_of_key {s : State} (hp : s.phase = .key) (he : s.errCode = .none) : statusWord s = 1#32 := by
  rw [statusWord, hp, he]
  decide

/-- Settles O29: BEGIN writes every element, whatever stood there. -/
theorem beginOpensAnEmptyComputation : Obligations.BeginOpensAnEmptyComputation := by
  intro s
  refine ⟨⟨respondOkay (openPhase .key initialChain s), rfl, rfl, rfl, rfl, rfl, rfl, rfl, rfl, rfl, ?status,
    ⟨rfl, rfl, rfl⟩, rfl, rfl⟩, exec_wrCmd_encode .begin_ s, fun w hop hne => ?reserved⟩
  case status => exact statusWord_of_key rfl rfl
  case reserved => exact reservedOperandChecked_of_ne hop (by decide) hne s

/-- Settles O30: CLEAR writes the reset value to every element. -/
theorem clearIsASoftwareReset : Obligations.ClearIsASoftwareReset := fun s =>
  ⟨rfl, exec_wrCmd_encode .clear s, fun _ hop hne => reservedOperandChecked_of_ne hop (by decide) hne s⟩

/-- Absorb compresses a full buffer only. -/
theorem absorb_h (b : Byte) (s : State) :
    (absorb b s).h = if s.bcnt.toNat = 64 then compress s.h s.buf.toList else s.h := by
  split
  case isTrue hfull => rw [absorb_full (BitVec.eq_of_toNat_eq hfull)]
  case isFalse hroom => rw [absorb_room fun hfull => hroom (by rw [hfull]; rfl)]

/-- Absorb stores its byte at BCNT, at the front after a full buffer. -/
theorem absorb_buf {s : State} (h : s.bcnt.toNat ≤ 64) (b : Byte) :
    (absorb b s).buf = s.buf.setIfInBounds (s.bcnt.toNat % 64) b := by
  obtain hfull | hroom := h.eq_or_lt
  · rw [absorb_full (BitVec.eq_of_toNat_eq hfull), hfull]
  · rw [absorb_room (fun hfull => by simp [hfull] at hroom), Nat.mod_eq_of_lt hroom]

/-- Absorb does what the pseudocode of 40_sha256_core.md R117 says, seen by its command. -/
theorem absorbedByte_absorb {s : State} (hbcnt : s.bcnt.toNat ≤ 64) (hlen : s.len.toNat + 1 < 2 ^ 61) (b : Byte) :
    AbsorbedByte b s (respondOkay (absorb b s)) := by
  refine ⟨fun hfull => ⟨?fullChain, tail_absorb_full hfull b, ?fullCount⟩,
    fun hroom => ⟨?roomChain, tail_absorb_room hroom b, ?roomCount⟩, fun i hi => ?buf, toNat_absorb_len hlen b,
    absorb_phase b s, absorb_errCode b s, absorb_kp b s, absorb_d b s,
    ⟨absorb_inReset b s, absorb_pending b s, absorb_freeCount b s⟩, rfl⟩
  case fullChain => exact (absorb_h b s).trans (if_pos hfull)
  case fullCount => exact (toNat_absorb_bcnt hbcnt b).trans (if_pos hfull)
  case roomChain => exact (absorb_h b s).trans (if_neg hroom.ne)
  case roomCount => exact (toNat_absorb_bcnt hbcnt b).trans (if_neg hroom.ne)
  case buf =>
    have hbuf : (respondOkay (absorb b s)).buf = s.buf.setIfInBounds (s.bcnt.toNat % 64) b := absorb_buf hbcnt b
    rw [hbuf, Fin.getElem_fin, Fin.getElem_fin, Vector.getElem_setIfInBounds_ne _ hi.symm]

/-- Below the limit a byte command in its phase absorbs its byte. -/
theorem absorbedByte_of_commandIn {p : Phase} {limit : Nat} {b : Byte} {s : State} (hphase : s.phase = p)
    (hp : p ≠ .error) (hlimit : limit < 2 ^ 61) (hlen : s.len.toNat < limit) (hbcnt : s.bcnt.toNat ≤ 64) :
    AbsorbedByte b s (commandIn p (absorbBelow limit b) s) := by
  rw [commandIn_legal hphase hp, absorbBelow_below hlen.ne]
  exact absorbedByte_absorb hbcnt (by omega) b

/-- At the limit a byte command in its phase is a LENGTH error. -/
theorem errorEntered_of_commandIn {p : Phase} {limit : Nat} {b : Byte} {s : State} (hphase : s.phase = p)
    (hp : p ≠ .error) (hlen : s.len.toNat = limit) :
    ErrorEntered .length s (commandIn p (absorbBelow limit b) s) := by
  rw [commandIn_legal hphase hp, absorbBelow_at hlen]
  exact errorEntered_protocolError _ s

/-- Settles O32: KEYB is the byte command of KEY with the limit LMAX_KEY. -/
theorem keybAbsorbsUpToTheLimit : Obligations.KeybAbsorbsUpToTheLimit := by
  intro b s
  refine ⟨fun hphase hlen hbcnt => ⟨_, rfl, ?below⟩, fun hphase hlen => ⟨_, rfl, ?limit⟩, legalOnlyIn_of_commandIn rfl,
    fun w hw => ?word, fun w hop hbits => reservedOperandChecked_of_byteCommand hop (by decide) hbits s⟩
  case below => exact absorbedByte_of_commandIn hphase (by decide) (by decide) hlen hbcnt
  case limit => exact errorEntered_of_commandIn hphase (by decide) hlen
  case word =>
    obtain rfl : w = (Command.keyb b).encode := eq_enc_iff_toNat.mpr hw
    exact exec_wrCmd_encode (.keyb b) s

/-- Settles O35: MSGB is the byte command of MSG with the limit LMAX_MSG. -/
theorem msgbAbsorbsUpToTheLimit : Obligations.MsgbAbsorbsUpToTheLimit := by
  intro b s
  refine ⟨fun hphase hlen hbcnt => ⟨_, rfl, ?below⟩, fun hphase hlen => ⟨_, rfl, ?limit⟩, legalOnlyIn_of_commandIn rfl,
    fun w hw => ?word, fun w hop hbits => reservedOperandChecked_of_byteCommand hop (by decide) hbits s⟩
  case below => exact absorbedByte_of_commandIn hphase (by decide) (by decide) hlen hbcnt
  case limit => exact errorEntered_of_commandIn hphase (by decide) hlen
  case word =>
    obtain rfl : w = (Command.msgb b).encode := eq_enc_iff_toNat.mpr hw
    exact exec_wrCmd_encode (.msgb b) s

@[simp] theorem bufPrefix_length (s : State) (n : Nat) : (bufPrefix s n).length = min n 64 := by simp [bufPrefix]

/-- K' has 64 bytes in each branch, from any state (42_key.md R163). -/
@[simp] theorem keyFromState_length (s : State) : (keyFromState s).length = 64 := by
  unfold keyFromState
  split
  · simp; omega
  · simp

/-- KEYEND writes the K' that it forms. -/
theorem closeKey_kp_toList (s : State) : (closeKey s).kp.toList = keyFromState s := by
  rw [closeKey_kp, fitBytes_toList (keyFromState_length s)]

/-- KEYEND opens the message of the key absorbed (10_state.md R31, the row MSG). -/
theorem msgRow_closeKey {k : List Byte} {s : State} (h : KeyRow k s) : MsgRow k [] (respondOkay (closeKey s)) := by
  obtain ⟨hk, -, -⟩ := id h
  exact ⟨hk, Nat.zero_le _, streaming_nil (closeKey_h_of_keyRow h) rfl rfl, closeKey_kp_of_keyRow h⟩

/-- In KEY the instruction KEYEND closes the key (42_key.md R163). -/
theorem exec_keyend_of_key {s : State} (h : s.phase = .key) : exec .keyend s = .next (respondOkay (closeKey s)) := by
  rw [← commandResult_keyend h]
  exact exec_toInstr .keyend s

/-- Settles O33: KEYEND in KEY is closeKey, with K' by the branch on LEN. -/
theorem keyendClosesTheKey : Obligations.KeyendClosesTheKey := by
  intro s
  refine ⟨fun hphase => ?close, legalOnlyIn_of_commandIn rfl, exec_wrCmd_encode .keyend s,
    fun w hop hne => reservedOperandChecked_of_ne hop (by decide) hne s⟩
  case close =>
    refine ⟨_, exec_keyend_of_key hphase, rfl, fun hshort => ?short, fun hlong => ?long, ?chain, rfl, rfl, rfl, rfl,
      rfl, ⟨rfl, rfl, rfl⟩, rfl, fun k hrow => ⟨closeKey_kp_of_keyRow hrow, msgRow_closeKey hrow⟩⟩
    case short => exact (closeKey_kp_toList s).trans (if_pos hshort)
    case long => exact (closeKey_kp_toList s).trans (if_neg (Nat.not_le.mpr hlong))
    case chain =>
      rw [respondOkay_kp, closeKey_kp_toList]
      rfl

/-- Settles O36: FINISH in MSG is publish, and in DONE the registers show its digest. -/
theorem finishPublishesAndErases : Obligations.FinishPublishesAndErases := by
  intro s
  refine ⟨fun hphase => ?publish, legalOnlyIn_of_commandIn rfl, exec_wrCmd_encode .finish s,
    fun w hop hne => reservedOperandChecked_of_ne hop (by decide) hne s⟩
  case publish =>
    refine ⟨_, exec_finish_of_msg hphase, rfl, ?digest, workingErased_publish s, rfl,
      fun herr => statusWord_of_done rfl herr, ⟨rfl, rfl, rfl⟩, rfl, fun c hc => ?hex⟩
    case digest => exact fitBytes_toList (finalize_length _ _ _)
    case hex => rw [exec_rdHex_next hc, hexWord_of_done rfl]

/-- The table of 60_exceptions.md R222 for a command legal in the phase p only, where it leads to q. -/
theorem phases_of_commandIn {c : Command} {p q : Phase} {f : State → State} {s : State}
    (htable : ∀ r, phaseTable c r = if r = .error then some .error else if r = p then some q else none)
    (hf : s.phase = p → (f s).phase = q) :
    (∀ r, phaseTable c s.phase = some r → (commandIn p f s).phase = r) ∧
      (phaseTable c s.phase = none → ErrorEntered .sequence s (commandIn p f s)) ∧
      (s.phase = .error → c ≠ .begin_ → c ≠ .clear → SameEngine s (commandIn p f s)) := by
  obtain ⟨herror, h⟩ | ⟨herror, hp, h⟩ | ⟨herror, hp, h⟩ := commandIn_cases p f s
  · rw [h, htable, if_pos herror]
    exact ⟨fun r hr => herror.trans (Option.some.inj hr), nofun, fun _ _ _ => SameEngine.refl s⟩
  · rw [h, htable, if_neg herror, if_pos hp]
    exact ⟨fun r hr => (hf hp).trans (Option.some.inj hr), nofun, fun h => absurd h herror⟩
  · rw [h, htable, if_neg herror, if_neg hp]
    exact ⟨nofun, fun _ => errorEntered_protocolError _ s, fun h => absurd h herror⟩

/-- Below the limit Absorb stays in its phase. -/
theorem absorbBelow_phase {limit : Nat} {s : State} (h : s.len.toNat ≠ limit) (b : Byte) :
    (absorbBelow limit b s).phase = s.phase := by
  rw [absorbBelow_below h, absorb_phase]

/-- Settles O48: BEGIN and CLEAR lead to one phase from every other, each other command is legal in one phase, and a
word that is no command is an error. -/
theorem phasesFollowTheTable : Obligations.PhasesFollowTheTable := by
  refine ⟨fun c s hkey hmsg => ⟨_, exec_toInstr c s, ?command⟩, fun w s e hdec => ?word⟩
  case command =>
    cases c with
    | begin_ => exact ⟨fun p hp => Option.some.inj hp, nofun, fun _ h _ => absurd rfl h⟩
    | clear => exact ⟨fun p hp => Option.some.inj hp, nofun, fun _ _ h => absurd rfl h⟩
    | keyb b =>
      exact phases_of_commandIn (fun r => by cases r <;> rfl) fun hp => (absorbBelow_phase (hkey b rfl) b).trans hp
    | msgb b =>
      exact phases_of_commandIn (fun r => by cases r <;> rfl) fun hp => (absorbBelow_phase (hmsg b rfl) b).trans hp
    | keyend => exact phases_of_commandIn (f := closeKey) (fun r => by cases r <;> rfl) fun _ => rfl
    | finish => exact phases_of_commandIn (f := publish) (fun r => by cases r <;> rfl) fun _ => rfl
  case word =>
    by_cases hphase : s.phase = .error
    · exact ⟨_, exec_wrCmd_of_cmdError_ignored hphase hdec, hphase, fun h => absurd hphase h,
        fun _ => SameEngine.refl s⟩
    · exact ⟨_, exec_wrCmd_of_cmdError hphase hdec, rfl, fun _ => errorEntered_protocolError _ s,
        fun h => absurd h hphase⟩

/-- There is no register HEX[c] with c above 63 (20_memory.md R53). -/
theorem exec_rdHex_unmapped {c : Nat} (hc : ¬c < 64) (s : State) : exec (.rdHex c) s = .next (busError s) := by
  rw [exec_rdHex, execRdHex, if_neg (by simpa [hexIndexOk] using hc)]

/-- Settles O44: a read changes the response only, and what it reads is not the response. -/
theorem readsHaveNoSideEffect : Obligations.ReadsHaveNoSideEffect := by
  rintro i s t (rfl | rfl | ⟨c, rfl⟩) hexec
  · obtain rfl := eq_of_next (exec_rdCmd_next s) hexec
    exact ⟨SameEngine.refl s, ⟨rfl, rfl, rfl⟩, rfl⟩
  · obtain rfl := eq_of_next (exec_rdStatus_next s) hexec
    exact ⟨SameEngine.refl s, ⟨rfl, rfl, rfl⟩, rfl⟩
  · by_cases hc : c < 64
    · obtain rfl := eq_of_next (exec_rdHex_next hc s) hexec
      exact ⟨SameEngine.refl s, ⟨rfl, rfl, rfl⟩, exec_rdHex_next hc _⟩
    · obtain rfl := eq_of_next (exec_rdHex_unmapped hc s) hexec
      exact ⟨SameEngine.refl s, ⟨rfl, rfl, rfl⟩, exec_rdHex_unmapped hc _⟩

end Sys2Proof.Machine

/-! What a host cannot see: the state before a BEGIN, the hidden state of 10_state.md R32, and the stale bytes of BUF
(10_state.md R31; 93_implementation_defined.md U9). -/

namespace Sys2Proof.Machine

open Sys2Proof

theorem responses_succ {s u : State} (h : step s = .next u) (n : Nat) :
    responses (n + 1) s = u.response :: responses n u := by
  rw [responses, h]

/-- BEGIN keeps of a state the model's own fields only (41_session.md R140). -/
theorem commandResult_begin_eq {s t : State} (h : SameOutside s t) :
    commandResult .begin_ s = commandResult .begin_ t := by
  obtain ⟨hreset, hpending, hfree⟩ := h
  simp [commandResult, respondOkay, respond, openPhase, clearDigest, zeroize, hreset, hpending, hfree]

/-- Out of reset, the step of a BEGIN runs it. -/
theorem step_begin {s : State} {rest : List Input} (hreset : s.inReset = false)
    (hpending : s.pending = inputsOf [.command .begin_] ++ rest) :
    step s = .next (commandResult .begin_ { s with pending := rest }) :=
  (step_performs hpending).trans (performInput_of_command (c := .begin_) (s := { s with pending := rest }) hreset rfl)

/-- Settles O31: BEGIN leaves the same state in both machines. -/
theorem beginForgetsEverythingBefore : Obligations.BeginForgetsEverythingBefore := by
  intro s₁ s₂ rest n hreset₁ hreset₂ hfree hpending₁ hpending₂
  have hsame : commandResult .begin_ { s₁ with pending := rest } = commandResult .begin_ { s₂ with pending := rest } :=
    commandResult_begin_eq ⟨hreset₂.trans hreset₁.symm, rfl, hfree.symm⟩
  cases n with
  | zero => rfl
  | succ n => rw [responses_succ (step_begin hreset₁ hpending₁), responses_succ (step_begin hreset₂ hpending₂), hsame]

/-- An instruction is a write of CMD, a command, or an access that answers from PHASE, ERRCODE and D alone
(10_state.md R32). -/
theorem exec_alike_cases (i : Instr) {s t : State} (hphase : t.phase = s.phase) (herr : t.errCode = s.errCode)
    (hd : t.d = s.d) :
    (∃ w, i = .wrCmd w) ∨ (∃ c : Command, i = c.toInstr) ∨
      ∃ r v, exec i s = .next (respond r v s) ∧ exec i t = .next (respond r v t) := by
  cases i using Instr.casesByCommand with
  | command c => exact .inr (.inl ⟨c, rfl⟩)
  | wrCmd w => exact .inl ⟨w, rfl⟩
  | rdCmd | wrStatus w | wrHex c w => exact .inr (.inr ⟨_, _, rfl, rfl⟩)
  | rdStatus =>
    have hstatus : statusWord t = statusWord s := by rw [statusWord, statusWord, hphase, herr]
    exact .inr (.inr ⟨.okay, statusWord s, rfl, hstatus ▸ rfl⟩)
  | rdHex c =>
    have hhex : hexWord t c = hexWord s c := by rw [hexWord, hexWord, hphase, hd]
    by_cases hc : c < 64
    · exact .inr (.inr ⟨.okay, hexWord s c, exec_rdHex_next hc s, hhex ▸ exec_rdHex_next hc t⟩)
    · exact .inr (.inr ⟨.error, 0#32, exec_rdHex_unmapped hc s, exec_rdHex_unmapped hc t⟩)

/-- A transaction that decodes carries the selector of its instruction. -/
theorem exists_encode_of_decodeTxn {x : Txn} {i : Instr} (h : decodeTxn x = .ok i) : ∃ v, encode i = .bus x.sel v := by
  unfold decodeTxn at h
  split at h
  case isTrue => cases h
  case isFalse =>
    obtain ⟨-, v, hv, -⟩ := isEncodingOf_of_decodeBus h
    exact ⟨v, hv⟩

/-- No transaction decodes to a command's row: command words have no selector (30_encoding.md R70). -/
theorem decodeTxn_ne_command (x : Txn) (c : Command) : decodeTxn x ≠ .ok c.toInstr := fun h => by
  obtain ⟨v, hv⟩ := exists_encode_of_decodeTxn h
  rw [encode_toInstr] at hv
  cases hv

/-- Only a write at offset 0 decodes to WR CMD (20_memory.md R53). -/
theorem kind_off_of_decodeTxn_wrCmd {x : Txn} {w : Word} (h : decodeTxn x = .ok (.wrCmd w)) :
    x.kind = .wr ∧ x.off = 0#12 := by
  obtain ⟨v, hv⟩ := exists_encode_of_decodeTxn h
  have hsel : x.sel = 0x1000#13 := (Encoding.bus.inj hv).1.symm
  refine ⟨(getLsbD_sel_twelve x).mp (hsel ▸ rfl), ?_⟩
  rw [← extractLsb'_sel, hsel]
  rfl

/-- A transaction that is no write at offset 0 is answered from PHASE, ERRCODE, D and the reset line alone. -/
theorem acceptTxn_alike {x : Txn} {s t : State} (hx : x.kind = .wr → x.off ≠ 0#12) (hreset : t.inReset = s.inReset)
    (hphase : t.phase = s.phase) (herr : t.errCode = s.errCode) (hd : t.d = s.d) :
    ∃ u v, acceptTxn x s = .next u ∧ acceptTxn x t = .next v ∧ u.response = v.response := by
  cases hs : s.inReset with
  | true => exact ⟨_, _, acceptTxn_inReset hs, acceptTxn_inReset (hreset.trans hs), rfl⟩
  | false =>
    have ht : t.inReset = false := hreset.trans hs
    cases hdec : decodeTxn x with
    | error e => exact ⟨_, _, acceptTxn_rejected hs hdec, acceptTxn_rejected ht hdec, rfl⟩
    | ok i =>
      rw [acceptTxn_decoded hs hdec, acceptTxn_decoded ht hdec]
      obtain ⟨w, rfl⟩ | ⟨c, rfl⟩ | ⟨r, v, hexec, hexec'⟩ := exec_alike_cases i hphase herr hd
      · obtain ⟨hkind, hoff⟩ := kind_off_of_decodeTxn_wrCmd hdec
        exact absurd hoff (hx hkind)
      · exact absurd hdec (decodeTxn_ne_command x c)
      · exact ⟨_, _, hexec, hexec', rfl⟩

/-- Settles O53: both steps are the same accepted transaction's. -/
theorem hiddenStateIsNotReadDirectly : Obligations.HiddenStateIsNotReadDirectly := by
  intro s₁ s₂ t₁ t₂ x r₁ r₂ hx hpending₁ hpending₂ hreset hphase herr hd hstep₁ hstep₂
  obtain ⟨u, v, hu, hv, hresponse⟩ := acceptTxn_alike (s := { s₁ with pending := r₁ }) (t := { s₂ with pending := r₂ })
    hx hreset.symm hphase.symm herr.symm hd.symm
  obtain rfl := eq_of_next ((step_performs hpending₁).trans hu) hstep₁
  obtain rfl := eq_of_next ((step_performs hpending₂).trans hv) hstep₂
  exact hresponse

end Sys2Proof.Machine

/-! Stale bytes: every operation keeps two states equal but for the bytes of BUF at and beyond BCNT. -/

namespace Sys2Proof.Machine

open Sys2Proof

theorem SameButStaleBytes.refl (s : State) : SameButStaleBytes s s :=
  ⟨rfl, rfl, rfl, rfl, rfl, rfl, rfl, rfl, rfl, rfl, rfl, rfl⟩

theorem SameButStaleBytes.response_eq {s t : State} (h : SameButStaleBytes s t) : t.response = s.response := by
  obtain ⟨-, -, -, -, -, -, -, -, hresponse, -⟩ := h
  exact hresponse

theorem SameButStaleBytes.sameOutside {s t : State} (h : SameButStaleBytes s t) : SameOutside s t := by
  obtain ⟨-, -, -, -, -, -, -, -, -, houtside⟩ := h
  exact houtside

theorem sameButStaleBytes_respond {s t : State} (h : SameButStaleBytes s t) (r : Resp) (v : Word) :
    SameButStaleBytes (respond r v s) (respond r v t) := by
  obtain ⟨hphase, herr, hh, htail, hbcnt, hlen, hkp, hd, -, houtside⟩ := h
  exact ⟨hphase, herr, hh, htail, hbcnt, hlen, hkp, hd, rfl, houtside⟩

theorem sameButStaleBytes_notAccepted {s t : State} (h : SameButStaleBytes s t) :
    SameButStaleBytes (notAccepted s) (notAccepted t) := by
  obtain ⟨hphase, herr, hh, htail, hbcnt, hlen, hkp, hd, -, houtside⟩ := h
  exact ⟨hphase, herr, hh, htail, hbcnt, hlen, hkp, hd, rfl, houtside⟩

theorem sameButStaleBytes_dropInput {s t : State} (h : SameButStaleBytes s t) (rest : List Input) :
    SameButStaleBytes { s with pending := rest } { t with pending := rest } := by
  obtain ⟨hphase, herr, hh, htail, hbcnt, hlen, hkp, hd, hresponse, hreset, -, hfree⟩ := h
  exact ⟨hphase, herr, hh, htail, hbcnt, hlen, hkp, hd, hresponse, hreset, rfl, hfree⟩

/-- Error entry overwrites BUF. -/
theorem sameButStaleBytes_protocolError {s t : State} (h : SameButStaleBytes s t) (code : ErrCode) :
    SameButStaleBytes (protocolError code s) (protocolError code t) :=
  ⟨rfl, rfl, rfl, rfl, rfl, rfl, rfl, rfl, h.response_eq, h.sameOutside⟩

/-- BEGIN and CLEAR overwrite BUF. -/
theorem sameButStaleBytes_openPhase {s t : State} (h : SameButStaleBytes s t) (p : Phase) (h0 : Chain) :
    SameButStaleBytes (openPhase p h0 s) (openPhase p h0 t) :=
  ⟨rfl, rfl, rfl, rfl, rfl, rfl, rfl, rfl, h.response_eq, h.sameOutside⟩

/-- Absorb reads the bytes before BCNT only: all of BUF when it is full. -/
theorem sameButStaleBytes_absorb {s t : State} (h : SameButStaleBytes s t) (hs : s.bcnt.toNat ≤ 64) (b : Byte) :
    SameButStaleBytes (absorb b s) (absorb b t) := by
  obtain ⟨hphase, herr, hh, htail, hbcnt, hlen, hkp, hd, hresponse, hreset, hpending, hfree⟩ := h
  obtain ⟨htail', hh', hbcnt'⟩ : tail (absorb b t) = tail (absorb b s) ∧ (absorb b t).h = (absorb b s).h ∧
      (absorb b t).bcnt = (absorb b s).bcnt := by
    obtain hfull | hroom := hs.eq_or_lt
    · have hfull' : t.bcnt.toNat = 64 := hbcnt ▸ hfull
      refine ⟨by rw [tail_absorb_full hfull, tail_absorb_full hfull'], ?_, ?_⟩
      · rw [absorb_h, absorb_h, if_pos hfull, if_pos hfull', ← tail_of_full hfull, ← tail_of_full hfull', hh, htail]
      · rw [absorb_full (BitVec.eq_of_toNat_eq hfull), absorb_full (BitVec.eq_of_toNat_eq hfull')]
    · have hroom' : t.bcnt.toNat < 64 := hbcnt ▸ hroom
      refine ⟨by rw [tail_absorb_room hroom, tail_absorb_room hroom', htail], ?_, ?_⟩
      · rw [absorb_h, absorb_h, if_neg hroom.ne, if_neg hroom'.ne, hh]
      · apply BitVec.eq_of_toNat_eq
        rw [toNat_absorb_bcnt hs, toNat_absorb_bcnt hroom'.le, hbcnt]
  simp only [SameButStaleBytes, SameOutside, absorb_phase, absorb_errCode, absorb_kp, absorb_d, absorb_response,
    absorb_inReset, absorb_pending, absorb_freeCount, absorb_len]
  exact ⟨hphase, herr, hh', htail', hbcnt', by rw [hlen], hkp, hd, hresponse, hreset, hpending, hfree⟩

theorem sameButStaleBytes_absorbBelow {s t : State} (h : SameButStaleBytes s t) (hs : s.bcnt.toNat ≤ 64) (limit : Nat)
    (b : Byte) : SameButStaleBytes (absorbBelow limit b s) (absorbBelow limit b t) := by
  obtain ⟨-, -, -, -, -, hlen, -⟩ := id h
  rw [absorbBelow, absorbBelow, hlen]
  split
  · exact sameButStaleBytes_protocolError h _
  · exact sameButStaleBytes_absorb h hs b

/-- KEYEND reads of BUF the tail only: a short key is all of it (42_key.md R163). -/
theorem sameButStaleBytes_closeKey {s t : State} (h : SameButStaleBytes s t) (hshort : ShortKeyBuffered s)
    (hkey : s.phase = .key) : SameButStaleBytes (closeKey s) (closeKey t) := by
  obtain ⟨-, herr, hh, htail, hbcnt, hlen, -, hd, hresponse, houtside⟩ := h
  have hkp : keyFromState t = keyFromState s := by
    rw [keyFromState, keyFromState, hlen]
    split
    case isTrue hle =>
      have htail' : bufPrefix t s.len.toNat = bufPrefix s s.len.toNat := by
        rw [← hshort hkey hle]
        rwa [tail, hbcnt] at htail
      rw [htail']
    case isFalse => rw [hh, htail]
  exact ⟨rfl, herr, by rw [closeKey_h, closeKey_h, hkp], rfl, rfl, rfl, by rw [closeKey_kp, closeKey_kp, hkp], hd,
    hresponse, houtside⟩

/-- FINISH reads of BUF the tail only. -/
theorem sameButStaleBytes_publish {s t : State} (h : SameButStaleBytes s t) :
    SameButStaleBytes (publish s) (publish t) := by
  obtain ⟨-, herr, hh, htail, -, hlen, hkp, -, hresponse, houtside⟩ := h
  have hinner : innerFromState t = innerFromState s := by rw [innerFromState, innerFromState, hh, htail, hlen]
  exact ⟨rfl, herr, rfl, rfl, rfl, rfl, rfl, by rw [publish_d, publish_d, hkp, hinner], hresponse, houtside⟩

theorem sameButStaleBytes_commandIn {s t : State} (h : SameButStaleBytes s t) (p : Phase) {f : State → State}
    (hf : s.phase = p → SameButStaleBytes (f s) (f t)) : SameButStaleBytes (commandIn p f s) (commandIn p f t) := by
  obtain ⟨hphase, -⟩ := id h
  rw [commandIn, commandIn, hphase]
  refine sameButStaleBytes_respond ?_ .okay 0#32
  split
  · exact h
  · split
    case isTrue hp => exact hf hp
    case isFalse => exact sameButStaleBytes_protocolError h _

theorem sameButStaleBytes_commandResult {s t : State} (h : SameButStaleBytes s t) (hs : CountersKept s) (c : Command) :
    SameButStaleBytes (commandResult c s) (commandResult c t) := by
  obtain ⟨⟨hbcnt, -, -⟩, hshort⟩ := hs
  cases c with
  | begin_ | clear => exact sameButStaleBytes_respond (sameButStaleBytes_openPhase h _ _) .okay 0#32
  | keyb b | msgb b => exact sameButStaleBytes_commandIn h _ fun _ => sameButStaleBytes_absorbBelow h hbcnt _ b
  | keyend => exact sameButStaleBytes_commandIn h _ fun hkey => sameButStaleBytes_closeKey h hshort hkey
  | finish => exact sameButStaleBytes_commandIn h _ fun _ => sameButStaleBytes_publish h

/-- Two outcomes are next states that differ in stale bytes only. -/
def NextAlike (o₁ o₂ : Host.Outcome State Fault Refusal) : Prop :=
  ∃ u v, o₁ = .next u ∧ o₂ = .next v ∧ SameButStaleBytes u v

theorem nextAlike_exec {s t : State} (h : SameButStaleBytes s t) (hs : CountersKept s) (i : Instr) :
    NextAlike (exec i s) (exec i t) := by
  obtain ⟨hphase, herr, -, -, -, -, -, hd, -⟩ := id h
  obtain ⟨w, rfl⟩ | ⟨c, rfl⟩ | ⟨r, v, hexec, hexec'⟩ := exec_alike_cases i hphase herr hd
  · obtain ⟨c, rfl, hexec⟩ | ⟨e, hdec, herror, hexec⟩ | ⟨e, hdec, herror, hexec⟩ := exec_wrCmd_cases w s
    · exact ⟨_, _, hexec, (exec_wrCmd_encode c t).trans (exec_toInstr c t), sameButStaleBytes_commandResult h hs c⟩
    · exact ⟨_, _, hexec, exec_wrCmd_of_cmdError (hphase ▸ herror) hdec,
        sameButStaleBytes_respond (sameButStaleBytes_protocolError h _) .okay 0#32⟩
    · exact ⟨_, _, hexec, exec_wrCmd_of_cmdError_ignored (hphase.trans herror) hdec,
        sameButStaleBytes_respond h .okay 0#32⟩
  · exact ⟨_, _, exec_toInstr c s, exec_toInstr c t, sameButStaleBytes_commandResult h hs c⟩
  · exact ⟨_, _, hexec, hexec', sameButStaleBytes_respond h r v⟩

theorem nextAlike_acceptTxn {s t : State} (h : SameButStaleBytes s t) (hs : CountersKept s) (x : Txn) :
    NextAlike (acceptTxn x s) (acceptTxn x t) := by
  obtain ⟨hreset, -⟩ := h.sameOutside
  cases hsreset : s.inReset with
  | true =>
    exact ⟨_, _, acceptTxn_inReset hsreset, acceptTxn_inReset (hreset.trans hsreset), sameButStaleBytes_notAccepted h⟩
  | false =>
    have htreset : t.inReset = false := hreset.trans hsreset
    cases hdec : decodeTxn x with
    | error e =>
      exact ⟨_, _, acceptTxn_rejected hsreset hdec, acceptTxn_rejected htreset hdec,
        sameButStaleBytes_respond h .error 0#32⟩
    | ok i =>
      rw [acceptTxn_decoded hsreset hdec, acceptTxn_decoded htreset hdec]
      exact nextAlike_exec h hs i

/-- Reset keeps of a state the model's own fields only. -/
theorem hardReset_eq {s t : State} (h : SameOutside s t) : hardReset t = hardReset s := by
  obtain ⟨-, hpending, hfree⟩ := h
  rw [hardReset, hardReset, hpending, hfree]

/-- An input is answered alike, unless it is an access outside the window. -/
theorem nextAlike_performInput {s t : State} (h : SameButStaleBytes s t) (hs : CountersKept s) (i : Input) :
    NextAlike (performInput i s) (performInput i t) ∨
      (performInput i s = .refused .outsideWindow ∧ performInput i t = .refused .outsideWindow) := by
  have houtside := h.sameOutside
  obtain ⟨hreset, -, hfree⟩ := id houtside
  cases i with
  | txn x => exact .inl (nextAlike_acceptTxn h hs x)
  | access a =>
    simp only [performInput]
    cases txnOfAccess a with
    | some x => exact .inl (nextAlike_acceptTxn h hs x)
    | none => exact .inr ⟨rfl, rfl⟩
  | resetAssert =>
    refine .inl ⟨_, _, rfl, rfl, ?_⟩
    rw [assertReset, assertReset, hardReset_eq houtside]
    exact SameButStaleBytes.refl _
  | resetCut x =>
    refine .inl ⟨_, _, rfl, rfl, ?_⟩
    rw [cutByReset, cutByReset, hardReset_eq houtside, hfree]
    exact SameButStaleBytes.refl _
  | resetRelease =>
    refine .inl ⟨_, _, rfl, rfl, ?_⟩
    rw [releaseReset, releaseReset, hardReset_eq houtside, hreset]
    split
    · exact SameButStaleBytes.refl _
    · exact sameButStaleBytes_notAccepted h

theorem nextAlike_step {s t : State} (h : SameButStaleBytes s t) (hs : CountersKept s) :
    NextAlike (step s) (step t) ∨ (step s = .refused .outsideWindow ∧ step t = .refused .outsideWindow) := by
  obtain ⟨-, hpending, -⟩ := h.sameOutside
  cases hspending : s.pending with
  | nil => exact .inl ⟨s, t, step_waits hspending, step_waits (hpending.trans hspending), h⟩
  | cons i rest =>
    rw [step_performs hspending, step_performs (hpending.trans hspending)]
    exact nextAlike_performInput (sameButStaleBytes_dropInput h rest) hs i

/-- Settles O52: the two machines stay equal but for stale bytes, and equal machines have equal responses. -/
theorem staleBufferBytesAreNeverSeen : Obligations.StaleBufferBytesAreNeverSeen := by
  intro s t n h hcounters hshort
  induction n generalizing s t with
  | zero => rfl
  | succ n ih =>
    obtain ⟨u, v, hu, hv, huv⟩ | ⟨hs, ht⟩ := nextAlike_step h ⟨hcounters, hshort⟩
    · obtain ⟨hcounters', hshort'⟩ := stepKeepsCountersInRange s u hcounters hshort hu
      rw [responses_succ hu, responses_succ hv, huv.response_eq, ih u v huv hcounters' hshort']
    · rw [responses, responses, hs, ht]

end Sys2Proof.Machine

/-! Work in compressions (70_reset_and_hazards.md R257): of each command, and of a whole computation. -/

namespace Sys2Proof.Machine

open Sys2Proof

/-- Finalize compresses one block for a tail of at most 55 bytes, and two for a longer one (40_sha256_core.md R115,
R116). -/
theorem finalizeWork_eq {t : List Byte} (ht : t.length ≤ 64) (total : Nat) :
    finalizeWork t total = if t.length ≤ 55 then 1 else 2 := by
  by_cases hfull : t.length = 64
  · rw [finalizeWork, finalBlocks, if_pos hfull, List.length_cons, blocks_length, pad_length, hfull]
    rfl
  · rw [finalizeWork, finalBlocks, if_neg hfull, blocks_length, pad_length, padZeros_eq (by omega)]
    split <;> omega

theorem tail_length {s : State} (h : s.bcnt.toNat ≤ 64) : (tail s).length = s.bcnt.toNat := by
  rw [tail, bufPrefix_length, Nat.min_eq_left h]

/-- KEYEND compresses the inner pad, and before it the padding of a long key. -/
theorem closeKeyWork_eq {s : State} (h : s.bcnt.toNat ≤ 64) :
    closeKeyWork s = if s.len.toNat ≤ 64 then 1 else if s.bcnt.toNat ≤ 55 then 2 else 3 := by
  rw [closeKeyWork, finalizeWork_eq (by rwa [tail_length h]), tail_length h]
  split_ifs <;> rfl

/-- FINISH compresses the padding of the message, the outer pad and the padding of the inner digest. -/
theorem publishWork_eq {s : State} (h : s.bcnt.toNat ≤ 64) :
    publishWork s = if s.bcnt.toNat ≤ 55 then 3 else 4 := by
  have hinner : (innerFromState s).length = 32 := finalize_length _ _ _
  rw [publishWork, finalizeWork_eq (by rwa [tail_length h]), finalizeWork_eq (by omega), tail_length h, hinner]
  split <;> rfl

/-- Absorb compresses a full buffer. -/
theorem absorbWork_eq (s : State) : absorbWork s = if s.bcnt.toNat = 64 then 1 else 0 := by
  have hfull : s.bcnt = 64#7 ↔ s.bcnt.toNat = 64 := BitVec.toNat_inj.symm
  simp only [absorbWork, hfull]

/-- The buffer is full after each whole block but none (10_state.md R31). -/
theorem bufferedCount_eq_full_iff (n : Nat) : bufferedCount n = 64 ↔ ∃ j, 1 ≤ j ∧ n + 1 = 64 * j + 1 := by
  rw [bufferedCount]
  constructor
  · intro h
    split at h
    case isTrue => omega
    case isFalse => exact ⟨n / 64, by omega, by omega⟩
  · rintro ⟨j, hj, hn⟩
    rw [if_neg (by omega)]
    omega

/-! The work of each command in its phase. -/

theorem commandWork_keyb {s : State} (hphase : s.phase = .key) (hlen : s.len.toNat < Config.lmaxKey) (b : Byte) :
    commandWork (.keyb b) s = if s.bcnt.toNat = 64 then 1 else 0 := by
  rw [commandWork, if_pos ⟨hphase, hlen.ne⟩, absorbWork_eq]

theorem commandWork_msgb {s : State} (hphase : s.phase = .msg) (hlen : s.len.toNat < Config.lmaxMsg) (b : Byte) :
    commandWork (.msgb b) s = if s.bcnt.toNat = 64 then 1 else 0 := by
  rw [commandWork, if_pos ⟨hphase, hlen.ne⟩, absorbWork_eq]

theorem commandWork_keyend {s : State} (hphase : s.phase = .key) (hbcnt : s.bcnt.toNat ≤ 64) :
    commandWork .keyend s = if s.len.toNat ≤ 64 then 1 else if s.bcnt.toNat ≤ 55 then 2 else 3 := by
  rw [commandWork, if_pos hphase, closeKeyWork_eq hbcnt]

theorem commandWork_finish {s : State} (hphase : s.phase = .msg) (hbcnt : s.bcnt.toNat ≤ 64) :
    commandWork .finish s = if s.bcnt.toNat ≤ 55 then 3 else 4 := by
  rw [commandWork, if_pos hphase, publishWork_eq hbcnt]

/-- A command that its checks refuse compresses nothing. -/
theorem commandWork_of_commandError {c : Command} {s : State} (h : commandError c s ≠ .none) :
    commandWork c s = 0 := by
  cases c with
  | begin_ | clear => rfl
  | keyb b | msgb b =>
    refine if_neg fun ⟨hphase, hlen⟩ => h ?_
    rw [commandError, sequenceOr, if_pos hphase, lengthError, if_neg hlen]
  | keyend | finish =>
    refine if_neg fun hphase => h ?_
    rw [commandError, sequenceOr, if_pos hphase]

/-- A command that goes to ERROR compresses nothing. -/
theorem commandWork_of_error {c : Command} {s : State} (hs : s.phase ≠ .error)
    (ht : (commandResult c s).phase = .error) : commandWork c s = 0 := by
  obtain ⟨hcode, -⟩ := eq_protocolError_of_reports ht (reports_commandResult hs c)
  exact commandWork_of_commandError hcode

/-- An instruction works as the command it runs, and not at all where it runs none. -/
theorem instrWork_cases (i : Instr) (s : State) :
    (∃ c, exec i s = .next (commandResult c s) ∧ instrWork i s = commandWork c s) ∨ instrWork i s = 0 := by
  cases i using Instr.casesByCommand with
  | command c => exact .inl ⟨c, exec_toInstr c s, by cases c <;> rfl⟩
  | wrCmd w =>
    cases hdec : decodeCmd w with
    | ok c =>
      obtain rfl := eq_encode_of_decodeCmd hdec
      exact .inl ⟨c, (exec_wrCmd_encode c s).trans (exec_toInstr c s), by rw [instrWork, hdec]⟩
    | error e => exact .inr (by rw [instrWork, hdec])
  | rdCmd | rdStatus | rdHex c | wrStatus w | wrHex c w => exact .inr rfl

/-- Settles O54: the work of each command by BCNT, and none for the rest. -/
theorem workPerCommandFollowsTheTable : Obligations.WorkPerCommandFollowsTheTable := by
  intro s b hcount
  have hbcnt : s.bcnt.toNat ≤ 64 := hcount ▸ bufferedCount_le _
  have hfull : s.bcnt.toNat = 64 ↔ ∃ j, 1 ≤ j ∧ s.len.toNat + 1 = 64 * j + 1 :=
    hcount ▸ bufferedCount_eq_full_iff s.len.toNat
  refine ⟨rfl, rfl, fun hphase hlen => ?keyb, fun hphase => ?keyend, fun hphase hlen => ?msgb, fun hphase => ?finish,
    fun i t hexec hs ht => ?error, rfl, rfl, fun _ => rfl, fun _ => rfl, fun _ _ => rfl⟩
  case keyb =>
    have hwork := commandWork_keyb hphase hlen b
    exact ⟨fun h => hwork.trans (if_pos (hfull.mpr h)), fun h => hwork.trans (if_neg (mt hfull.mp h))⟩
  case msgb =>
    have hwork := commandWork_msgb hphase hlen b
    exact ⟨fun h => hwork.trans (if_pos (hfull.mpr h)), fun h => hwork.trans (if_neg (mt hfull.mp h))⟩
  case keyend =>
    have hwork := commandWork_keyend hphase hbcnt
    refine ⟨fun hshort => hwork.trans (if_pos hshort), fun hlong hone => ?one, fun hlong htwo => ?two⟩
    case one => exact hwork.trans ((if_neg hlong.not_ge).trans (if_pos hone))
    case two => exact hwork.trans ((if_neg hlong.not_ge).trans (if_neg (by omega)))
  case finish =>
    have hwork := commandWork_finish hphase hbcnt
    exact ⟨fun hone => hwork.trans (if_pos hone), fun htwo => hwork.trans (if_neg (by omega))⟩
  case error =>
    obtain ⟨c, hexec', hwork⟩ | hwork := instrWork_cases i s
    · obtain rfl := eq_of_next hexec' hexec
      exact hwork.trans (commandWork_of_error hs ht)
    · exact hwork

/-! The work of a list of commands, and of a run of their lines. -/

/-- The compressions of a list of commands from s. -/
def commandsWork : List Command → State → Nat
  | [], _ => 0
  | c :: cs, s => commandWork c s + commandsWork cs (commandResult c s)

theorem commandsWork_append (cs ds : List Command) (s : State) :
    commandsWork (cs ++ ds) s = commandsWork cs s + commandsWork ds (runCommands cs s) := by
  induction cs generalizing s with
  | nil => exact (Nat.zero_add _).symm
  | cons c cs ih => rw [List.cons_append, commandsWork, ih, commandsWork, runCommands_cons, Nat.add_assoc]

/-- A command's work depends on the engine's elements alone. -/
theorem commandWork_of_sameEngine {s t : State} (h : SameEngine s t) (c : Command) :
    commandWork c t = commandWork c s := by
  rw [eq_of_sameEngine h]
  cases c <;> rfl

theorem commandsWork_of_sameEngine {s t : State} (h : SameEngine s t) (cs : List Command) :
    commandsWork cs t = commandsWork cs s := by
  induction cs generalizing s t with
  | nil => rfl
  | cons c cs ih =>
    rw [commandsWork, commandsWork, commandWork_of_sameEngine h, ih (sameEngine_commandResult h c)]

/-- The step of a command's line costs the command's work. -/
theorem stepWork_command {s : State} {c : Command} {rest : List Input} (hreset : s.inReset = false)
    (hpending : s.pending = .txn (AsmLine.command c).txn :: rest) : stepWork s = commandWork c s := by
  have hdec : decodeTxn (AsmLine.command c).txn = .ok (.wrCmd c.encode) := decodeTxn_cmd c.encode
  simp only [stepWork, hpending, txnWork, hreset, Bool.false_eq_true, if_false, hdec, instrWork, decodeCmd_encode]

theorem runWork_succ {s u : State} (h : step s = .next u) (n : Nat) :
    runWork (n + 1) s = stepWork s + runWork n u := by
  rw [runWork, h]

/-- A run of commands' lines costs the commands' work. -/
theorem runWork_commands {cs : List Command} {s : State} {rest : List Input} (hreset : s.inReset = false)
    (hpending : s.pending = inputsOf (cs.map .command) ++ rest) : runWork cs.length s = commandsWork cs s := by
  induction cs generalizing s with
  | nil => rfl
  | cons c cs ih =>
    replace hpending : s.pending = .txn (AsmLine.command c).txn :: (inputsOf (cs.map .command) ++ rest) := hpending
    obtain ⟨u, hstep, hupending, hureset, hu⟩ := step_of_command (c := c) hreset hpending rfl
    rw [List.length_cons, runWork_succ hstep, stepWork_command hreset hpending, ih hureset hupending,
      commandsWork_of_sameEngine hu, commandsWork]

/-- The blocks compressed by Absorb in n bytes: all full ones but the one that may still be in the buffer. -/
def absorbedBlocks (n : Nat) : Nat := (n - 1) / 64

theorem absorbedBlocks_succ (n : Nat) :
    absorbedBlocks (n + 1) = absorbedBlocks n + if bufferedCount n = 64 then 1 else 0 := by
  cases n with
  | zero => rfl
  | succ n =>
    simp only [absorbedBlocks, bufferedCount, Nat.add_one_ne_zero, if_false, Nat.add_sub_cancel]
    split <;> omega

/-- Byte commands that extend a row by their byte, each with the work of Absorb, cost together the blocks that their
bytes fill. -/
theorem commandsWork_byteCommands {command : Byte → Command} {row : List Byte → State → Prop} {limit : Nat}
    (hrow : ∀ {x s}, row x s → x.length < limit → ∀ b, row (x ++ [b]) (commandResult (command b) s))
    (hwork : ∀ {x s}, row x s → x.length < limit → ∀ b,
      commandWork (command b) s = if bufferedCount x.length = 64 then 1 else 0)
    {x y : List Byte} {s : State} (h : row x s) (hle : (x ++ y).length ≤ limit) :
    absorbedBlocks x.length + commandsWork (y.map command) s = absorbedBlocks (x ++ y).length := by
  induction y generalizing x s with
  | nil => rw [List.append_nil]; rfl
  | cons b y ih =>
    have hlt : x.length < limit := by
      rw [List.length_append, List.length_cons] at hle
      omega
    have hlength : (x ++ [b]).length = x.length + 1 := List.length_append
    rw [List.append_cons] at hle ⊢
    rw [← ih (hrow h hlt b) hle, hlength, absorbedBlocks_succ, List.map_cons, commandsWork, hwork h hlt b,
      Nat.add_assoc]

/-- The KEYB of every byte of a string, after BEGIN. -/
theorem commandsWork_keybs {k : List Byte} {s : State} (h : InKey [] s) (hk : k.length ≤ Config.lmaxKey) :
    commandsWork (k.map .keyb) s = absorbedBlocks k.length := by
  have hwork {x : List Byte} {s : State} (hrow : InKey x s) (hlt : x.length < Config.lmaxKey) (b : Byte) :
      commandWork (.keyb b) s = if bufferedCount x.length = 64 then 1 else 0 := by
    obtain ⟨hphase, -, ⟨-, ⟨-, -, hbcnt, hlen⟩, -⟩, -⟩ := hrow
    rw [commandWork_keyb hphase (hlen ▸ hlt), hbcnt]
  exact (Nat.zero_add _).symm.trans (commandsWork_byteCommands inKey_keyb hwork h hk)

/-- The MSGB of every byte of a string, after KEYEND. -/
theorem commandsWork_msgbs {k m : List Byte} {s : State} (h : InMsg k [] s) (hm : m.length ≤ Config.lmaxMsg) :
    commandsWork (m.map .msgb) s = absorbedBlocks m.length := by
  have hwork {x : List Byte} {s : State} (hrow : InMsg k x s) (hlt : x.length < Config.lmaxMsg) (b : Byte) :
      commandWork (.msgb b) s = if bufferedCount x.length = 64 then 1 else 0 := by
    obtain ⟨hphase, -, ⟨-, -, ⟨-, -, hbcnt, hlen⟩, -⟩, -⟩ := hrow
    rw [commandWork_msgb hphase (hlen ▸ hlt), hbcnt]
  exact (Nat.zero_add _).symm.trans (commandsWork_byteCommands inMsg_msgb hwork h hm)

/-- The key of a computation costs at most ⌈p/64⌉ + 2 compressions. -/
theorem commandsWork_keyCommands_le (s : State) {k : List Byte} (hk : k.length ≤ Config.lmaxKey) :
    commandsWork (keyCommands k) s ≤ (k.length + 63) / 64 + 2 := by
  obtain ⟨hphase, -, ⟨-, ⟨-, -, hbcnt, hlen⟩, -⟩, -⟩ : InKey k (runCommands (k.map .keyb) (commandResult .begin_ s)) :=
    inKey_keybs (inKey_begin s) hk
  have hkeyend := commandWork_keyend hphase (hbcnt ▸ bufferedCount_le _)
  rw [hlen] at hkeyend
  have hbegin : commandWork .begin_ s = 0 := rfl
  rw [keyCommands, commandsWork, commandsWork_append, commandsWork, commandsWork, hbegin,
    commandsWork_keybs (inKey_begin s) hk, hkeyend, absorbedBlocks]
  split_ifs <;> omega

/-- The message of a computation costs at most ⌈q/64⌉ + 3 compressions. -/
theorem commandsWork_message_le {k m : List Byte} {s : State} (h : InMsg k [] s) (hm : m.length ≤ Config.lmaxMsg) :
    commandsWork (m.map .msgb ++ [.finish]) s ≤ (m.length + 63) / 64 + 3 := by
  obtain ⟨hphase, -, ⟨-, -, ⟨-, -, hbcnt, -⟩, -⟩, -⟩ : InMsg k m (runCommands (m.map .msgb) s) := inMsg_msgbs h hm
  have hfinish := commandWork_finish hphase (hbcnt ▸ bufferedCount_le _)
  rw [hbcnt, bufferedCount] at hfinish
  rw [commandsWork_append, commandsWork, commandsWork, commandsWork_msgbs h hm, hfinish, absorbedBlocks]
  split_ifs <;> omega

/-- Settles O55: the run costs the work of its commands, which is that of the key and that of the message. -/
theorem computationWorkIsLinear : Obligations.ComputationWorkIsLinear := by
  intro s k m rest hk hm hreset hpending
  rw [hmacLines_eq_map] at hpending ⊢
  rw [List.length_map, runWork_commands hreset hpending, hmacCommands, commandsWork_append]
  obtain ⟨u, hkey, hcommands⟩ := runCommands_keyCommands s hk
  rw [hcommands]
  have hkeyWork := commandsWork_keyCommands_le s hk
  have hmsgWork := commandsWork_message_le (inMsg_closeKey hkey) hm
  omega

end Sys2Proof.Machine
